-- ==== Sys2Proof/Word.lean ====
section
/-! DEFINITION. The two word types of the block (spec 00_scope R7) and nothing else. -/

namespace Sys2Proof

/-- A byte: 8 bits (00_scope R7). -/
abbrev Byte := BitVec 8

/-- A word: 16 bits, the width of every register and of `ip` (00_scope R7, 10_state R20, R23, R28). -/
abbrev Word := BitVec 16

end Sys2Proof
end

