-- ==== Sys2Proof/Syntax/Parts.lean ====
section
/-! DEFINITION. The parts an instruction record is made of: widths, registers, flags' names, effective
addresses, operands, immediates, prefix values and the decoder's reasons (spec 30_encoding R95 to R104,
10_state R20 to R24, 40_decoder_prefixes R144, 60_exceptions R431). -/

namespace Sys2Proof

/-- Width of an operation: `byte` is `w = 0`, `word` is `w = 1` (00_scope R10). -/
inductive Width where
  | byte
  | word
deriving DecidableEq, Repr

/-- The byte halves of ax, cx, dx, bx (10_state R21), in the order of the register catalog (30_encoding R97). -/
inductive Reg8 where
  | al | cl | dl | bl | ah | ch | dh | bh
deriving DecidableEq, Repr

/-- The eight general registers (10_state R20), in the order of the register catalog (30_encoding R97). -/
inductive Reg16 where
  | ax | cx | dx | bx | sp | bp | si | di
deriving DecidableEq, Repr

/-- The four segment registers (10_state R23), in the order of the catalog (30_encoding R98). -/
inductive Sreg where
  | es | cs | ss | ds
deriving DecidableEq, Repr

/-- The nine flags (10_state R24). -/
inductive Flag where
  | CF | PF | AF | ZF | SF | OF | IF | DF | TF
deriving DecidableEq, Repr

/-- `calculationKind`: the nine effective-address categories (30_encoding R96). -/
inductive EaKind where
  | bxSi | bxDi | bpSi | bpDi | si | di | bx | bp | direct
deriving DecidableEq, Repr

/-- The displacement bytes that follow the ModRM byte: none, one or two (30_encoding R95). The signed value
the record carries is `Disp.value`; the bytes are kept because `byteLength` counts them. -/
inductive Disp where
  | none
  | d8 (b : Byte)
  | d16 (w : Word)
deriving DecidableEq, Repr

/-- An effective address (30_encoding R102): category, displacement, segment override if any, and
`operandSize` (`none` is the spec's `null`). -/
structure Ea where
  kind : EaKind
  disp : Disp
  seg  : Option Sreg
  size : Option Width
deriving DecidableEq, Repr

/-- A register or memory operand (30_encoding R101). `Seg`, `Imm` and `Far` operands stand only in fixed
places of a record and are fields of their own in `Instr`. -/
inductive Operand where
  | reg8  (r : Reg8)
  | reg16 (r : Reg16)
  | mem   (ea : Ea)
deriving DecidableEq, Repr

/-- A data immediate, as its bytes (30_encoding R99): one byte or two. Its signed value is `Imm.value`. -/
inductive Imm where
  | b (v : Byte)
  | w (v : Word)
deriving DecidableEq, Repr

/-- The count operand of a shift or rotate: `Imm(1)` or `Reg8(cl)` (30_encoding R123). -/
inductive ShiftCount where
  | one
  | cl
deriving DecidableEq, Repr

/-- The repeat field of a string record (30_encoding R103). -/
inductive Rep where
  | none
  | rep
  | repne
deriving DecidableEq, Repr

/-- The reason tags of `MalformedEncoding` (60_exceptions R431). -/
inductive Malformed where
  | prefixAlreadySet
  | truncated
  | reservedEncoding
  | registerWhereMemoryRequired
  | lockNotPermitted
  | unconsumedPrefix
deriving DecidableEq, Repr

end Sys2Proof
end

