-- ==== Sys2Proof/Syntax.lean ====
section
/-! DEFINITION. `Instr`, the instruction records the decoder produces (spec 30_encoding R100 to R105), one
constructor per kind, and five constructors for the rows of spec/opcode_table.json that yield no record: the
reserved rows (R128) and the four prefix rows (R131). -/

namespace Sys2Proof

/-- An instruction. `lock : Bool` stands on the 19 kinds that consume a lock (40_decoder_prefixes R153), `rep` on
the five string kinds (R151), the segment override in the record's `Ea` (R147). Displacements and relative
targets are kept as their bytes, so that `byteLength` (30_encoding R94) is a function of the record. -/
inductive Instr where
  -- data transfer (43_data_transfer)
  | movRmReg (dst src : Operand)
  | movRmImm (dst : Operand) (imm : Imm)
  | movRegImm (dst : Operand) (imm : Imm)
  | movAccMem (w : Width) (ea : Ea)
  | movMemAcc (w : Width) (ea : Ea)
  | movSregRm (dst : Sreg) (src : Operand)
  | movRmSreg (dst : Operand) (src : Sreg)
  | pushRm (op : Operand)
  | pushReg (r : Reg16)
  | pushSreg (s : Sreg)
  | popRm (op : Operand)
  | popReg (r : Reg16)
  | popSreg (s : Sreg)
  | xchgRmReg (lock : Bool) (op1 op2 : Operand)
  | xchgAccReg (r : Reg16)
  | inFixed (w : Width) (port : Byte)
  | inVar (w : Width)
  | outFixed (w : Width) (port : Byte)
  | outVar (w : Width)
  | xlat
  | lea (r : Reg16) (ea : Ea)
  | lds (r : Reg16) (ea : Ea)
  | les (r : Reg16) (ea : Ea)
  | lahf
  | sahf
  | pushf
  | popf
  -- arithmetic (44_arithmetic)
  | addRmReg (lock : Bool) (op1 op2 : Operand)
  | addRmImm (lock : Bool) (op1 : Operand) (imm : Imm)
  | addAccImm (imm : Imm)
  | adcRmReg (lock : Bool) (op1 op2 : Operand)
  | adcRmImm (lock : Bool) (op1 : Operand) (imm : Imm)
  | adcAccImm (imm : Imm)
  | incRm (lock : Bool) (op : Operand)
  | incReg (r : Reg16)
  | aaa
  | daa
  | subRmReg (lock : Bool) (op1 op2 : Operand)
  | subRmImm (lock : Bool) (op1 : Operand) (imm : Imm)
  | subAccImm (imm : Imm)
  | sbbRmReg (lock : Bool) (op1 op2 : Operand)
  | sbbRmImm (lock : Bool) (op1 : Operand) (imm : Imm)
  | sbbAccImm (imm : Imm)
  | decRm (lock : Bool) (op : Operand)
  | decReg (r : Reg16)
  | neg (lock : Bool) (op : Operand)
  | cmpRmReg (op1 op2 : Operand)
  | cmpRmImm (op1 : Operand) (imm : Imm)
  | cmpAccImm (imm : Imm)
  | aas
  | das
  | mul (op : Operand)
  | imul (op : Operand)
  | aam
  | div (op : Operand)
  | idiv (op : Operand)
  | aad
  | cbw
  | cwd
  -- logic and shifts (45_logic_shift)
  | not (lock : Bool) (op : Operand)
  | shl (op : Operand) (count : ShiftCount)
  | shr (op : Operand) (count : ShiftCount)
  | sar (op : Operand) (count : ShiftCount)
  | rol (op : Operand) (count : ShiftCount)
  | ror (op : Operand) (count : ShiftCount)
  | rcl (op : Operand) (count : ShiftCount)
  | rcr (op : Operand) (count : ShiftCount)
  | andRmReg (lock : Bool) (op1 op2 : Operand)
  | andRmImm (lock : Bool) (op1 : Operand) (imm : Imm)
  | andAccImm (imm : Imm)
  | testRmReg (op1 op2 : Operand)
  | testRmImm (op1 : Operand) (imm : Imm)
  | testAccImm (imm : Imm)
  | orRmReg (lock : Bool) (op1 op2 : Operand)
  | orRmImm (lock : Bool) (op1 : Operand) (imm : Imm)
  | orAccImm (imm : Imm)
  | xorRmReg (lock : Bool) (op1 op2 : Operand)
  | xorRmImm (lock : Bool) (op1 : Operand) (imm : Imm)
  | xorAccImm (imm : Imm)
  -- strings (46_string)
  | movs (w : Width) (r : Rep)
  | cmps (w : Width) (r : Rep)
  | scas (w : Width) (r : Rep)
  | lods (w : Width) (r : Rep)
  | stos (w : Width) (r : Rep)
  -- control transfer (47_control_transfer)
  | callNear (disp : Word)
  | callNearInd (op : Operand)
  | callFar (seg off : Word)
  | callFarInd (ea : Ea)
  | jmpNear (disp : Word)
  | jmpShort (disp : Byte)
  | jmpNearInd (op : Operand)
  | jmpFar (seg off : Word)
  | jmpFarInd (ea : Ea)
  | retNear
  | retNearImm (n : Word)
  | retFar
  | retFarImm (n : Word)
  | je (disp : Byte)
  | jl (disp : Byte)
  | jle (disp : Byte)
  | jb (disp : Byte)
  | jbe (disp : Byte)
  | jp (disp : Byte)
  | jo (disp : Byte)
  | js (disp : Byte)
  | jne (disp : Byte)
  | jnl (disp : Byte)
  | jnle (disp : Byte)
  | jnb (disp : Byte)
  | jnbe (disp : Byte)
  | jnp (disp : Byte)
  | jno (disp : Byte)
  | jns (disp : Byte)
  | loop (disp : Byte)
  | loopz (disp : Byte)
  | loopnz (disp : Byte)
  | jcxz (disp : Byte)
  | int (type : Byte)
  | int3
  | into
  | iret
  -- processor control (48_processor_control)
  | clc
  | cmc
  | stc
  | cld
  | std
  | cli
  | sti
  | hlt
  | wait
  | esc (opcode : BitVec 6) (op : Operand)
  | unknown (b : Byte)
  -- rows that yield no record of their own (log 7)
  | reserved (b0 b1 : Byte)
  | seg (s : Sreg) (i : Instr)
  | lock (i : Instr)
  | repne (i : Instr)
  | rep (i : Instr)
deriving DecidableEq, Repr

end Sys2Proof
end

