-- ==== Sys2Proof/Syntax/Kind.lean ====
section
/-! DEFINITION. The closed enumeration of instruction kinds (spec 30_encoding R100, R105): 131 kinds and the
unknown marker's. -/

namespace Sys2Proof

/-- The kinds of 30_encoding R105, in the order of their semantic rules. -/
inductive Kind where
  | movRmReg | movRmImm | movRegImm | movAccMem | movMemAcc | movSregRm | movRmSreg | pushRm
  | pushReg | pushSreg | popRm | popReg | popSreg | xchgRmReg | xchgAccReg | inFixed
  | inVar | outFixed | outVar | xlat | lea | lds | les | lahf
  | sahf | pushf | popf
  | addRmReg | addRmImm | addAccImm | adcRmReg | adcRmImm | adcAccImm | incRm | incReg
  | aaa | daa | subRmReg | subRmImm | subAccImm | sbbRmReg | sbbRmImm | sbbAccImm
  | decRm | decReg | neg | cmpRmReg | cmpRmImm | cmpAccImm | aas | das
  | mul | imul | aam | div | idiv | aad | cbw | cwd
  | not | shl | shr | sar | rol | ror | rcl | rcr
  | andRmReg | andRmImm | andAccImm | testRmReg | testRmImm | testAccImm | orRmReg | orRmImm
  | orAccImm | xorRmReg | xorRmImm | xorAccImm
  | movs | cmps | scas | lods | stos
  | callNear | callNearInd | callFar | callFarInd | jmpNear | jmpShort | jmpNearInd | jmpFar
  | jmpFarInd | retNear | retNearImm | retFar | retFarImm | je | jl | jle
  | jb | jbe | jp | jo | js | jne | jnl | jnle
  | jnb | jnbe | jnp | jno | jns | loop | loopz | loopnz
  | jcxz | int | int3 | into | iret
  | clc | cmc | stc | cld | std | cli | sti | hlt
  | wait | esc
  | unknown
deriving DecidableEq, Repr

end Sys2Proof
end

