-- ==== Sys2Proof/Config.lean ====
section
/-! DEFINITION. The parameters of the block (spec 00_scope R8), their defaults, and the free values. A `Config`
is carried in State as plain data that nothing writes, so every statement about a state holds for every value
of the parameters. -/

namespace Sys2Proof

/-- `UNDEF_FLAGS` (42_alu_flags R208): a flag the 8086 leaves undefined keeps its value, or is drawn freely. -/
inductive UndefFlags where
  | unchanged
  | draw
deriving DecidableEq, Repr

/-- `LOCKABLE` (00_scope R8, 40_decoder_prefixes R153), any predicate on the records that call `ConsumeLock`, as plain
data (log 8): the classes it holds of, a class being a kind and whether the destination is memory, and the single
records on which its answer is the other one. -/
structure Lockable where
  classes    : List (Kind × Bool)
  /-- Records with `lock = false`, as `ConsumeLock` meets them (40_decoder_prefixes R148). -/
  exceptions : List Instr
deriving DecidableEq, Repr

/-- `LOCKABLE(rec)` for a record `i` of kind `k` whose destination is memory or not. -/
def Lockable.allows (lk : Lockable) (k : Kind) (toMem : Bool) (i : Instr) : Bool :=
  decide ((k, toMem) ∈ lk.classes) != decide (i ∈ lk.exceptions)

/-- The kinds that need a memory destination to be lockable (40_decoder_prefixes R153 (b)). -/
def Lockable.readModifyWrite : List Kind :=
  [.addRmReg, .adcRmReg, .subRmReg, .sbbRmReg, .andRmReg, .orRmReg, .xorRmReg] ++
  [.addRmImm, .adcRmImm, .subRmImm, .sbbRmImm, .andRmImm, .orRmImm, .xorRmImm] ++
  [.incRm, .decRm, .neg, .not]

/-- The default `LOCKABLE`: an exchange whatever its operands, the others with a memory destination
(40_decoder_prefixes R153). -/
def Lockable.default : Lockable where
  classes    := [(.xchgRmReg, true), (.xchgRmReg, false)] ++ Lockable.readModifyWrite.map fun k => (k, true)
  exceptions := []

/-- The parameters of 00_scope R8 that the decoder and execution read. PROGRAM and INIT are fields of State. -/
structure Config where
  /-- `EA_WRAP16`: the effective-address offset is reduced modulo 2^16 (41_operands_addressing R186). -/
  eaWrap16   : Bool
  /-- `UNDEF_FLAGS` (42_alu_flags R208). -/
  undefFlags : UndefFlags
  /-- `IDIV_MIN8`: smallest quotient a byte IDIV accepts (44_arithmetic R309). -/
  idivMin8   : Int
  /-- `IDIV_MIN16`: smallest quotient a word IDIV accepts (44_arithmetic R309). -/
  idivMin16  : Int
  /-- `FLAG_FILL`: the non-flag bits of the flags word (10_state R26). -/
  flagFill   : Word
  /-- `SIMULATED`: the kinds the execution unit gives a meaning (60_exceptions R438). -/
  simulated  : List Kind
  /-- `LOCKABLE`: the records that may take a lock (40_decoder_prefixes R153). -/
  lockable   : Lockable
deriving DecidableEq, Repr

/-- The members of the default `SIMULATED` from 43_data_transfer except the four I/O kinds (60_exceptions R438). -/
def Config.simulatedDataTransfer : List Kind :=
  [.movRmReg, .movRmImm, .movRegImm, .movAccMem, .movMemAcc, .movSregRm, .movRmSreg, .pushRm] ++
  [.pushReg, .pushSreg, .popRm, .popReg, .popSreg, .xchgRmReg, .xchgAccReg, .xlat] ++
  [.lea, .lds, .les, .lahf, .sahf, .pushf, .popf]

/-- The members of the default `SIMULATED` from 44_arithmetic, all (60_exceptions R438). -/
def Config.simulatedArithmetic : List Kind :=
  [.addRmReg, .addRmImm, .addAccImm, .adcRmReg, .adcRmImm, .adcAccImm, .incRm, .incReg] ++
  [.aaa, .daa, .subRmReg, .subRmImm, .subAccImm, .sbbRmReg, .sbbRmImm, .sbbAccImm] ++
  [.decRm, .decReg, .neg, .cmpRmReg, .cmpRmImm, .cmpAccImm, .aas, .das] ++
  [.mul, .imul, .aam, .div, .idiv, .aad, .cbw, .cwd]

/-- The members of the default `SIMULATED` from 45_logic_shift, all (60_exceptions R438). -/
def Config.simulatedLogicShift : List Kind :=
  [.not, .shl, .shr, .sar, .rol, .ror, .rcl, .rcr] ++
  [.andRmReg, .andRmImm, .andAccImm, .testRmReg, .testRmImm, .testAccImm, .orRmReg, .orRmImm] ++
  [.orAccImm, .xorRmReg, .xorRmImm, .xorAccImm]

/-- The members of the default `SIMULATED` from 46_string, all (60_exceptions R438). -/
def Config.simulatedString : List Kind :=
  [.movs, .cmps, .scas, .lods, .stos]

/-- The members of the default `SIMULATED` from 47_control_transfer except int, int3, into, iret (60_exceptions R438). -/
def Config.simulatedControlTransfer : List Kind :=
  [.callNear, .callNearInd, .callFar, .callFarInd, .jmpNear, .jmpShort, .jmpNearInd, .jmpFar] ++
  [.jmpFarInd, .retNear, .retNearImm, .retFar, .retFarImm, .je, .jl, .jle] ++
  [.jb, .jbe, .jp, .jo, .js, .jne, .jnl, .jnle] ++
  [.jnb, .jnbe, .jnp, .jno, .jns, .loop, .loopz, .loopnz] ++
  [.jcxz]

/-- The members of the default `SIMULATED` from 48_processor_control: the seven flag instructions (60_exceptions R438). -/
def Config.simulatedProcessorControl : List Kind :=
  [.clc, .cmc, .stc, .cld, .std, .cli, .sti]

/-- The default `SIMULATED` set: 120 of the 131 kinds (60_exceptions R438). -/
def Config.defaultSimulated : List Kind :=
  Config.simulatedDataTransfer ++ Config.simulatedArithmetic ++ Config.simulatedLogicShift ++
  Config.simulatedString ++ Config.simulatedControlTransfer ++ Config.simulatedProcessorControl

/-- The defaults of 00_scope R8. -/
def Config.default : Config where
  eaWrap16   := true
  undefFlags := .unchanged
  idivMin8   := -127
  idivMin16  := -32767
  flagFill   := 0xF002#16
  simulated  := Config.defaultSimulated
  lockable   := Lockable.default

/-- FREE VALUE (log 5): the value an undefined flag takes at the `n`-th draw when `UNDEF_FLAGS = draw`
(42_alu_flags R208, "a free draw"). It has no body, so nothing can be proved of its value. -/
opaque Config.freeFlag : Nat → Flag → Bool

end Sys2Proof
end

