-- ==== Sys2Proof/WellFormed.lean ====
section
/-! DEFINITION. Which instructions the decoder can produce: the record invariants of spec 30_encoding R104 and the
operand shapes of 40_decoder_prefixes R157. -/

namespace Sys2Proof

/-- A `Mem` operand, as against a register. -/
def Operand.isMem : Operand → Bool
  | .mem _ => true
  | .reg8 _ => false
  | .reg16 _ => false

/-- The displacement sizes each category can have (30_encoding R95, R96): the direct address has two bytes, plain
`bp` has one or two. -/
def Ea.wf (ea : Ea) : Bool :=
  match ea.kind, ea.disp with
  | .direct, .d16 _ => true
  | .direct, .d8 _ => false
  | .direct, .none => false
  | .bp, .none => false
  | _, _ => true

/-- An r/m or register operand of width `w` (40_decoder_prefixes R154). -/
def Operand.isAt (w : Width) : Operand → Bool
  | .reg8 _ => w == .byte
  | .reg16 _ => w == .word
  | .mem ea => ea.wf && ea.size == some w

/-- An r/m operand of either width. -/
def Operand.isRm (op : Operand) : Bool := op.isAt .byte || op.isAt .word

/-- A memory operand of neither width: `operandSize = null` (30_encoding R102). -/
def Ea.isNull (ea : Ea) : Bool := ea.wf && ea.size == none

/-- The operand of ESC (40_decoder_prefixes R157): a memory operand of no size, or a 16-bit register. -/
def Operand.isEsc : Operand → Bool
  | .reg8 _ => false
  | .reg16 _ => true
  | .mem ea => ea.isNull

/-- The two operands of a `MODRM_DW` form: one width, at most one memory operand (30_encoding R104). -/
def pairDW (op1 op2 : Operand) : Bool :=
  (op1.isAt .byte && op2.isAt .byte || op1.isAt .word && op2.isAt .word) && !(op1.isMem && op2.isMem)

/-- The two operands of a `MODRM_W` form: the second is the register (40_decoder_prefixes R157). -/
def pairW (op1 op2 : Operand) : Bool :=
  (op1.isAt .byte && op2.isAt .byte || op1.isAt .word && op2.isAt .word) && !op2.isMem

/-- An immediate of width `w`. -/
def Imm.isAt (w : Width) : Imm → Bool
  | .b _ => w == .byte
  | .w _ => w == .word

/-- Operand and immediate of one width (`MODRM_EXT_W_IMM`, `REG_IMM`, and the logic rows of the immediate group). -/
def immW (op : Operand) (imm : Imm) : Bool :=
  op.isAt .byte && imm.isAt .byte || op.isAt .word && imm.isAt .word

/-- The arithmetic rows of the immediate group: a word operand also takes a sign-extended byte (30_encoding R91,
`s:w = 11`). -/
def immSW (op : Operand) (imm : Imm) : Bool :=
  op.isAt .byte && imm.isAt .byte || op.isAt .word

/-- `lock = true` only if the record satisfies `LOCKABLE` (30_encoding R104): `i` is the record without the lock, `k`
its kind, `op1` its destination. -/
def lockOk (lk : Lockable) (lock : Bool) (k : Kind) (op1 : Operand) (i : Instr) : Bool :=
  !lock || lk.allows k op1.isMem i

/-- The 23 not-used first bytes (30_encoding R127). -/
def isNotUsed (b : Byte) : Bool :=
  b == 0x0F || b.toNat / 16 == 6 || b == 0xC0 || b == 0xC1 || b == 0xC8 || b == 0xC9 || b == 0xD6 || b == 0xF1

/-- The instructions that are a record of the decoder with the parameter `LOCKABLE = lk` (30_encoding R103, R104).
Prefix bytes never make a record of their own (40_decoder_prefixes R145) and a reserved encoding makes none
(30_encoding R128). -/
def WellFormed (lk : Lockable) : Instr → Bool
  | .movRmReg a b => pairDW a b
  | .movRmImm a imm => immW a imm
  | .movRegImm a imm => immW a imm && !a.isMem
  | .movAccMem w ea => ea.wf && ea.kind == .direct && ea.size == some w
  | .movMemAcc w ea => ea.wf && ea.kind == .direct && ea.size == some w
  | .movSregRm _ b => b.isAt .word
  | .movRmSreg a _ => a.isAt .word
  | .pushRm a => a.isAt .word
  | .pushReg _ => true
  | .pushSreg _ => true
  | .popRm a => a.isAt .word
  | .popReg _ => true
  | .popSreg s => s != .cs
  | .xchgRmReg l a b => pairW a b && lockOk lk l .xchgRmReg a (.xchgRmReg false a b)
  | .xchgAccReg _ => true
  | .inFixed _ _ => true
  | .inVar _ => true
  | .outFixed _ _ => true
  | .outVar _ => true
  | .xlat => true
  | .lea _ ea => ea.isNull
  | .lds _ ea => ea.isNull
  | .les _ ea => ea.isNull
  | .lahf => true
  | .sahf => true
  | .pushf => true
  | .popf => true
  | .addRmReg l a b => pairDW a b && lockOk lk l .addRmReg a (.addRmReg false a b)
  | .addRmImm l a imm => immSW a imm && lockOk lk l .addRmImm a (.addRmImm false a imm)
  | .addAccImm _ => true
  | .adcRmReg l a b => pairDW a b && lockOk lk l .adcRmReg a (.adcRmReg false a b)
  | .adcRmImm l a imm => immSW a imm && lockOk lk l .adcRmImm a (.adcRmImm false a imm)
  | .adcAccImm _ => true
  | .incRm l a => a.isRm && lockOk lk l .incRm a (.incRm false a)
  | .incReg _ => true
  | .aaa => true
  | .daa => true
  | .subRmReg l a b => pairDW a b && lockOk lk l .subRmReg a (.subRmReg false a b)
  | .subRmImm l a imm => immSW a imm && lockOk lk l .subRmImm a (.subRmImm false a imm)
  | .subAccImm _ => true
  | .sbbRmReg l a b => pairDW a b && lockOk lk l .sbbRmReg a (.sbbRmReg false a b)
  | .sbbRmImm l a imm => immSW a imm && lockOk lk l .sbbRmImm a (.sbbRmImm false a imm)
  | .sbbAccImm _ => true
  | .decRm l a => a.isRm && lockOk lk l .decRm a (.decRm false a)
  | .decReg _ => true
  | .neg l a => a.isRm && lockOk lk l .neg a (.neg false a)
  | .cmpRmReg a b => pairDW a b
  | .cmpRmImm a imm => immSW a imm
  | .cmpAccImm _ => true
  | .aas => true
  | .das => true
  | .mul a => a.isRm
  | .imul a => a.isRm
  | .aam => true
  | .div a => a.isRm
  | .idiv a => a.isRm
  | .aad => true
  | .cbw => true
  | .cwd => true
  | .not l a => a.isRm && lockOk lk l .not a (.not false a)
  | .shl a _ => a.isRm
  | .shr a _ => a.isRm
  | .sar a _ => a.isRm
  | .rol a _ => a.isRm
  | .ror a _ => a.isRm
  | .rcl a _ => a.isRm
  | .rcr a _ => a.isRm
  | .andRmReg l a b => pairDW a b && lockOk lk l .andRmReg a (.andRmReg false a b)
  | .andRmImm l a imm => immW a imm && lockOk lk l .andRmImm a (.andRmImm false a imm)
  | .andAccImm _ => true
  | .testRmReg a b => pairW a b
  | .testRmImm a imm => immW a imm
  | .testAccImm _ => true
  | .orRmReg l a b => pairDW a b && lockOk lk l .orRmReg a (.orRmReg false a b)
  | .orRmImm l a imm => immW a imm && lockOk lk l .orRmImm a (.orRmImm false a imm)
  | .orAccImm _ => true
  | .xorRmReg l a b => pairDW a b && lockOk lk l .xorRmReg a (.xorRmReg false a b)
  | .xorRmImm l a imm => immW a imm && lockOk lk l .xorRmImm a (.xorRmImm false a imm)
  | .xorAccImm _ => true
  | .movs _ _ => true
  | .cmps _ _ => true
  | .scas _ _ => true
  | .lods _ _ => true
  | .stos _ _ => true
  | .callNear _ => true
  | .callNearInd a => a.isAt .word
  | .callFar _ _ => true
  | .callFarInd ea => ea.isNull
  | .jmpNear _ => true
  | .jmpShort _ => true
  | .jmpNearInd a => a.isAt .word
  | .jmpFar _ _ => true
  | .jmpFarInd ea => ea.isNull
  | .retNear => true
  | .retNearImm _ => true
  | .retFar => true
  | .retFarImm _ => true
  | .je _ => true
  | .jl _ => true
  | .jle _ => true
  | .jb _ => true
  | .jbe _ => true
  | .jp _ => true
  | .jo _ => true
  | .js _ => true
  | .jne _ => true
  | .jnl _ => true
  | .jnle _ => true
  | .jnb _ => true
  | .jnbe _ => true
  | .jnp _ => true
  | .jno _ => true
  | .jns _ => true
  | .loop _ => true
  | .loopz _ => true
  | .loopnz _ => true
  | .jcxz _ => true
  | .int _ => true
  | .int3 => true
  | .into => true
  | .iret => true
  | .clc => true
  | .cmc => true
  | .stc => true
  | .cld => true
  | .std => true
  | .cli => true
  | .sti => true
  | .hlt => true
  | .wait => true
  | .esc _ a => a.isEsc
  | .unknown b => isNotUsed b
  | .reserved _ _ => false
  | .seg _ _ => false
  | .lock _ => false
  | .repne _ => false
  | .rep _ => false

end Sys2Proof
end

