-- ==== Sys2Proof/Decode.lean ====
section
/-! DEFINITION. The decoder (spec 30_encoding, 40_decoder_prefixes), total on any bytes and rejecting by name, and
the encoder written from the same tables. -/

namespace Sys2Proof

/-! ### Bytes, conversions and catalogs -/

/-- `concat(hi, lo)` (00_scope R10): two bytes of a little-endian word. -/
def concatBytes (hi lo : Byte) : Word := hi ++ lo

/-- The low byte of a word. -/
def loByte (w : Word) : Byte := w.extractLsb' 0 8

/-- The high byte of a word. -/
def hiByte (w : Word) : Byte := w.extractLsb' 8 8

/-- `conv8` and `conv16` of the bytes a record carries (30_encoding R99): the signed integer `Imm(n)`. -/
def Imm.value : Imm → Int
  | .b v => v.toInt
  | .w v => v.toInt

/-- The signed displacement of a record, 0 for `null` (30_encoding R96, 41_operands_addressing R186). -/
def Disp.value : Disp → Int
  | .none => 0
  | .d8 b => b.toInt
  | .d16 w => w.toInt

/-- The register catalog, `w = 0` (30_encoding R97). -/
def Reg8.ofCode (n : BitVec 3) : Reg8 :=
  match n.toNat with
  | 0 => .al | 1 => .cl | 2 => .dl | 3 => .bl | 4 => .ah | 5 => .ch | 6 => .dh | _ => .bh

/-- The inverse of `Reg8.ofCode` (30_encoding R97). -/
def Reg8.code : Reg8 → BitVec 3
  | .al => 0 | .cl => 1 | .dl => 2 | .bl => 3 | .ah => 4 | .ch => 5 | .dh => 6 | .bh => 7

/-- The register catalog, `w = 1` (30_encoding R97). -/
def Reg16.ofCode (n : BitVec 3) : Reg16 :=
  match n.toNat with
  | 0 => .ax | 1 => .cx | 2 => .dx | 3 => .bx | 4 => .sp | 5 => .bp | 6 => .si | _ => .di

/-- The inverse of `Reg16.ofCode` (30_encoding R97). -/
def Reg16.code : Reg16 → BitVec 3
  | .ax => 0 | .cx => 1 | .dx => 2 | .bx => 3 | .sp => 4 | .bp => 5 | .si => 6 | .di => 7

/-- The segment-register catalog (30_encoding R98). -/
def Sreg.ofCode (n : BitVec 2) : Sreg :=
  match n.toNat with
  | 0 => .es | 1 => .cs | 2 => .ss | _ => .ds

/-- The inverse of `Sreg.ofCode` (30_encoding R98). -/
def Sreg.code : Sreg → BitVec 2
  | .es => 0 | .cs => 1 | .ss => 2 | .ds => 3

/-- The fields of a ModRM byte (30_encoding R92). -/
def ModRM.mod (m : Byte) : BitVec 2 := m.extractLsb' 6 2
/-- The `reg` field of a ModRM byte (30_encoding R92). -/
def ModRM.reg (m : Byte) : BitVec 3 := m.extractLsb' 3 3
/-- The `rm` field of a ModRM byte (30_encoding R92). -/
def ModRM.rm (m : Byte) : BitVec 3 := m.extractLsb' 0 3

/-- A ModRM byte from its fields (30_encoding R92). -/
def ModRM.byte (mod : BitVec 2) (reg rm : BitVec 3) : Byte := mod ++ (reg ++ rm)

/-- The effective-address catalog (30_encoding R96), for `mod != 11`. -/
def EaKind.ofCode (mod : BitVec 2) (rm : BitVec 3) : EaKind :=
  match rm.toNat with
  | 0 => .bxSi | 1 => .bxDi | 2 => .bpSi | 3 => .bpDi | 4 => .si | 5 => .di
  | 6 => if mod = 0 then .direct else .bp
  | _ => .bx

/-- The `rm` field of a category (30_encoding R96). -/
def EaKind.code : EaKind → BitVec 3
  | .bxSi => 0 | .bxDi => 1 | .bpSi => 2 | .bpDi => 3 | .si => 4 | .di => 5 | .bp => 6 | .direct => 6 | .bx => 7

/-- The segment overrides, repeat and lock bytes (30_encoding R131). -/
def Sreg.overrideByte : Sreg → Byte
  | .es => 0x26 | .cs => 0x2E | .ss => 0x36 | .ds => 0x3E

/-! ### What the fields of a record are -/

/-- The effective address of a memory operand. -/
def Operand.ea? : Operand → Option Ea
  | .reg8 _ => none
  | .reg16 _ => none
  | .mem ea => some ea

/-- The one `Mem(ea)` of a record, if it has one (30_encoding R104). String instructions and XLAT have none
(40_decoder_prefixes R147). -/
def Instr.mem? : Instr → Option Ea
  | .movRmReg a b => a.ea?.or b.ea?
  | .movRmImm a _ => a.ea?
  | .movRegImm a _ => a.ea?
  | .movAccMem _ a => some a
  | .movMemAcc _ a => some a
  | .movSregRm _ a => a.ea?
  | .movRmSreg a _ => a.ea?
  | .pushRm a => a.ea?
  | .popRm a => a.ea?
  | .xchgRmReg _ a b => a.ea?.or b.ea?
  | .lea _ a => some a
  | .lds _ a => some a
  | .les _ a => some a
  | .addRmReg _ a b => a.ea?.or b.ea?
  | .addRmImm _ a _ => a.ea?
  | .adcRmReg _ a b => a.ea?.or b.ea?
  | .adcRmImm _ a _ => a.ea?
  | .incRm _ a => a.ea?
  | .subRmReg _ a b => a.ea?.or b.ea?
  | .subRmImm _ a _ => a.ea?
  | .sbbRmReg _ a b => a.ea?.or b.ea?
  | .sbbRmImm _ a _ => a.ea?
  | .decRm _ a => a.ea?
  | .neg _ a => a.ea?
  | .cmpRmReg a b => a.ea?.or b.ea?
  | .cmpRmImm a _ => a.ea?
  | .mul a => a.ea?
  | .imul a => a.ea?
  | .div a => a.ea?
  | .idiv a => a.ea?
  | .not _ a => a.ea?
  | .shl a _ => a.ea?
  | .shr a _ => a.ea?
  | .sar a _ => a.ea?
  | .rol a _ => a.ea?
  | .ror a _ => a.ea?
  | .rcl a _ => a.ea?
  | .rcr a _ => a.ea?
  | .andRmReg _ a b => a.ea?.or b.ea?
  | .andRmImm _ a _ => a.ea?
  | .testRmReg a b => a.ea?.or b.ea?
  | .testRmImm a _ => a.ea?
  | .orRmReg _ a b => a.ea?.or b.ea?
  | .orRmImm _ a _ => a.ea?
  | .xorRmReg _ a b => a.ea?.or b.ea?
  | .xorRmImm _ a _ => a.ea?
  | .callNearInd a => a.ea?
  | .callFarInd a => some a
  | .jmpNearInd a => a.ea?
  | .jmpFarInd a => some a
  | .esc _ a => a.ea?
  | .pushReg _ | .pushSreg _ | .popReg _ | .popSreg _ | .xchgAccReg _ | .inFixed _ _ | .inVar _ | .outFixed _ _
  | .outVar _ | .xlat | .lahf | .sahf | .pushf | .popf | .addAccImm _ | .adcAccImm _ | .incReg _ | .aaa | .daa
  | .subAccImm _ | .sbbAccImm _ | .decReg _ | .cmpAccImm _ | .aas | .das | .aam | .aad | .cbw | .cwd | .andAccImm _
  | .testAccImm _ | .orAccImm _ | .xorAccImm _ | .movs _ _ | .cmps _ _ | .scas _ _ | .lods _ _ | .stos _ _
  | .callNear _ | .callFar _ _ | .jmpNear _ | .jmpShort _ | .jmpFar _ _ | .retNear | .retNearImm _ | .retFar
  | .retFarImm _ | .je _ | .jl _ | .jle _ | .jb _ | .jbe _ | .jp _ | .jo _ | .js _ | .jne _ | .jnl _ | .jnle _
  | .jnb _ | .jnbe _ | .jnp _ | .jno _ | .jns _ | .loop _ | .loopz _ | .loopnz _ | .jcxz _ | .int _ | .int3 | .into
  | .iret | .clc | .cmc | .stc | .cld | .std | .cli | .sti | .hlt | .wait | .unknown _ | .reserved _ _ => none
  | .seg _ i => i.mem?
  | .lock i => i.mem?
  | .repne i => i.mem?
  | .rep i => i.mem?

/-- `ConsumeLock` (40_decoder_prefixes R148, R153): on the 19 kinds that consume a lock, whether `LOCKABLE` holds
of the record, and the record with `lock = true`. -/
def Instr.consumeLock (lk : Lockable) : Instr → Option (Bool × Instr)
  | .xchgRmReg _ a b => some (lk.allows .xchgRmReg a.isMem (.xchgRmReg false a b), .xchgRmReg true a b)
  | .addRmReg _ a b => some (lk.allows .addRmReg a.isMem (.addRmReg false a b), .addRmReg true a b)
  | .adcRmReg _ a b => some (lk.allows .adcRmReg a.isMem (.adcRmReg false a b), .adcRmReg true a b)
  | .subRmReg _ a b => some (lk.allows .subRmReg a.isMem (.subRmReg false a b), .subRmReg true a b)
  | .sbbRmReg _ a b => some (lk.allows .sbbRmReg a.isMem (.sbbRmReg false a b), .sbbRmReg true a b)
  | .andRmReg _ a b => some (lk.allows .andRmReg a.isMem (.andRmReg false a b), .andRmReg true a b)
  | .orRmReg _ a b => some (lk.allows .orRmReg a.isMem (.orRmReg false a b), .orRmReg true a b)
  | .xorRmReg _ a b => some (lk.allows .xorRmReg a.isMem (.xorRmReg false a b), .xorRmReg true a b)
  | .addRmImm _ a imm => some (lk.allows .addRmImm a.isMem (.addRmImm false a imm), .addRmImm true a imm)
  | .adcRmImm _ a imm => some (lk.allows .adcRmImm a.isMem (.adcRmImm false a imm), .adcRmImm true a imm)
  | .subRmImm _ a imm => some (lk.allows .subRmImm a.isMem (.subRmImm false a imm), .subRmImm true a imm)
  | .sbbRmImm _ a imm => some (lk.allows .sbbRmImm a.isMem (.sbbRmImm false a imm), .sbbRmImm true a imm)
  | .andRmImm _ a imm => some (lk.allows .andRmImm a.isMem (.andRmImm false a imm), .andRmImm true a imm)
  | .orRmImm _ a imm => some (lk.allows .orRmImm a.isMem (.orRmImm false a imm), .orRmImm true a imm)
  | .xorRmImm _ a imm => some (lk.allows .xorRmImm a.isMem (.xorRmImm false a imm), .xorRmImm true a imm)
  | .incRm _ a => some (lk.allows .incRm a.isMem (.incRm false a), .incRm true a)
  | .decRm _ a => some (lk.allows .decRm a.isMem (.decRm false a), .decRm true a)
  | .neg _ a => some (lk.allows .neg a.isMem (.neg false a), .neg true a)
  | .not _ a => some (lk.allows .not a.isMem (.not false a), .not true a)
  | _ => none

/-- The `lock` field of a record (30_encoding R103). -/
def Instr.isLocked : Instr → Bool
  | .xchgRmReg l _ _ => l
  | .addRmReg l _ _ => l
  | .adcRmReg l _ _ => l
  | .subRmReg l _ _ => l
  | .sbbRmReg l _ _ => l
  | .andRmReg l _ _ => l
  | .orRmReg l _ _ => l
  | .xorRmReg l _ _ => l
  | .addRmImm l _ _ => l
  | .adcRmImm l _ _ => l
  | .subRmImm l _ _ => l
  | .sbbRmImm l _ _ => l
  | .andRmImm l _ _ => l
  | .orRmImm l _ _ => l
  | .xorRmImm l _ _ => l
  | .incRm l _ => l
  | .decRm l _ => l
  | .neg l _ => l
  | .not l _ => l
  | _ => false

/-- `ConsumeRep` (40_decoder_prefixes R148, R151): the five string kinds take the repeat field. -/
def Instr.consumeRep (r : Rep) : Instr → Option Instr
  | .movs w _ => some (.movs w r)
  | .cmps w _ => some (.cmps w r)
  | .scas w _ => some (.scas w r)
  | .lods w _ => some (.lods w r)
  | .stos w _ => some (.stos w r)
  | _ => none

/-- The `rep` field of a record (30_encoding R103). -/
def Instr.repField : Instr → Rep
  | .movs _ r => r
  | .cmps _ r => r
  | .scas _ r => r
  | .lods _ r => r
  | .stos _ r => r
  | _ => .none

/-- The segment override of a record's memory operand (30_encoding R102). -/
def Instr.segOverride (i : Instr) : Option Sreg := i.mem?.bind Ea.seg

/-! ### The opcode map -/

/-- What one value of the ModRM `reg` field selects: the row of an opcode-extension group, or the whole family
where `reg` is a register number (30_encoding R92, R93). -/
inductive Ext where
  /-- A reserved value of the field (30_encoding R128). -/
  | reserved
  /-- One r/m operand of the given `operandSize`. -/
  | rm (size : Option Width) (f : Operand → Instr)
  /-- An r/m operand and an immediate byte. -/
  | rmImm8 (w : Width) (f : Operand → Byte → Instr)
  /-- An r/m operand and an immediate word. -/
  | rmImm16 (f : Operand → Word → Instr)
  /-- A memory operand of no size; a register is malformed (30_encoding R128 (h)). -/
  | memOnly (f : Ea → Instr)

/-- What follows the opcode byte (30_encoding R93), with how the record is assembled (40_decoder_prefixes R157). -/
inductive Format where
  /-- Nothing follows: `OP`, `OP_REG`, `OP_SR`, `OP_W`. -/
  | op (i : Instr)
  /-- One byte: `REL8`, `IMM8`, `PORT8`, and the byte forms of `ACC_IMM` and `REG_IMM`. -/
  | byte (f : Byte → Instr)
  /-- Two bytes: `REL16`, `IMM16`, and the word forms of `ACC_IMM` and `REG_IMM`. -/
  | word (f : Word → Instr)
  /-- Four bytes, offset then segment: `FAR`. -/
  | far (f : Word → Word → Instr)
  /-- The fixed byte `0A`: `OP_0A`. -/
  | op0A (i : Instr)
  /-- A direct address: `ACC_MEM`, at the given width. -/
  | accMem (w : Width) (f : Ea → Instr)
  /-- A ModRM byte: every `MODRM` format and `ESC`. -/
  | modrm (f : BitVec 3 → Ext)

/-- A first byte is a segment override, a lock, a repeat (30_encoding R131), or starts a body. -/
inductive FirstByte where
  | seg (s : Sreg)
  | lock
  | rep (r : Rep)
  | body (f : Format)

/-- A register operand of width `w` by its number (30_encoding R97). -/
def regOperand (w : Width) (n : BitVec 3) : Operand :=
  match w with
  | .byte => .reg8 (Reg8.ofCode n)
  | .word => .reg16 (Reg16.ofCode n)

/-- A row of the map that is one opcode byte. -/
def rowOp (i : Instr) : FirstByte := .body (.op i)

/-- `MODRM_DW`, `d = 0`: the `reg` field is the source; also `MODRM_W` (40_decoder_prefixes R157). -/
def rowRmReg (w : Width) (f : Operand → Operand → Instr) : FirstByte :=
  .body (.modrm fun reg => .rm (some w) fun op => f op (regOperand w reg))

/-- `MODRM_DW`, `d = 1`: the `reg` field is the destination (40_decoder_prefixes R157). -/
def rowRegRm (w : Width) (f : Operand → Operand → Instr) : FirstByte :=
  .body (.modrm fun reg => .rm (some w) fun op => f (regOperand w reg) op)

/-- The four rows `xxxx_xxdw` of a `MODRM_DW` family (30_encoding R91). -/
def rowsDW (f : Operand → Operand → Instr) : List FirstByte :=
  [rowRmReg .byte f, rowRmReg .word f, rowRegRm .byte f, rowRegRm .word f]

/-- The two rows of a `MODRM_W` family. -/
def rowsW (f : Operand → Operand → Instr) : List FirstByte :=
  [rowRmReg .byte f, rowRmReg .word f]

/-- The two rows of an `ACC_IMM` family. -/
def rowsAcc (f : Imm → Instr) : List FirstByte :=
  [.body (.byte fun b => f (.b b)), .body (.word fun v => f (.w v))]

/-- A row whose extensions are the eight values of `reg`, in order (30_encoding R122 to R125). -/
def rowGroup (exts : List Ext) : FirstByte :=
  .body (.modrm fun reg => exts.getD reg.toNat .reserved)

/-- `MODRM_R16` with a memory operand only (30_encoding R128 (h)). -/
def rowMemOnly (f : Reg16 → Ea → Instr) : FirstByte :=
  .body (.modrm fun reg => .memOnly (f (Reg16.ofCode reg)))

/-- `MODRM_SR`: bit 2 of `reg` must be clear (30_encoding R126). -/
def rowSreg (f : Sreg → Operand → Instr) : FirstByte :=
  .body (.modrm fun reg =>
    if reg.getLsbD 2 then .reserved else .rm (some .word) (f (Sreg.ofCode (reg.extractLsb' 0 2))))

/-- The sixteen rows whose low bits are one of eight registers, `lo` for `..000` to `..111`, then `hi`. -/
def rowsReg (f : Reg16 → Instr) : List FirstByte :=
  [.ax, .cx, .dx, .bx, .sp, .bp, .si, .di].map fun r => rowOp (f r)

/-- The immediate group `1000_00sw` (30_encoding R122) with a given way to read the immediate: `logic` says whether
the logic extensions exist (30_encoding R128 (b)). -/
def immGroup (mk : (Operand → Imm → Instr) → Ext) (logic : Bool) : FirstByte :=
  let logicExt (f : Operand → Imm → Instr) : Ext := if logic then mk f else .reserved
  rowGroup
    [mk (.addRmImm false), logicExt (.orRmImm false), mk (.adcRmImm false), mk (.sbbRmImm false),
     logicExt (.andRmImm false), mk (.subRmImm false), logicExt (.xorRmImm false), mk .cmpRmImm]

/-- An immediate byte after an r/m operand of width `w`. -/
def extImm8 (w : Width) (f : Operand → Imm → Instr) : Ext := .rmImm8 w fun op b => f op (.b b)

/-- An immediate word after a word r/m operand. -/
def extImm16 (f : Operand → Imm → Instr) : Ext := .rmImm16 fun op v => f op (.w v)

/-- An immediate of the operand's width. -/
def extImm (w : Width) (f : Operand → Imm → Instr) : Ext :=
  match w with
  | .byte => extImm8 .byte f
  | .word => extImm16 f

/-- The shift and rotate group `1101_00vw` (30_encoding R123). -/
def shiftGroup (w : Width) (count : ShiftCount) : FirstByte :=
  let rm (f : Operand → ShiftCount → Instr) : Ext := .rm (some w) fun op => f op count
  rowGroup [rm .rol, rm .ror, rm .rcl, rm .rcr, rm .shl, rm .shr, .reserved, rm .sar]

/-- The group `1111_011w` (30_encoding R124). -/
def mathGroup (w : Width) : FirstByte :=
  let rm (f : Operand → Instr) : Ext := .rm (some w) f
  rowGroup [extImm w .testRmImm, .reserved, rm (.not false), rm (.neg false), rm .mul, rm .imul, rm .div, rm .idiv]

/-- `FE` (30_encoding R125): only /0 and /1. -/
def incDecGroup8 : FirstByte :=
  rowGroup [.rm (some .byte) (.incRm false), .rm (some .byte) (.decRm false)]

/-- `FF` (30_encoding R125). -/
def incDecGroup16 : FirstByte :=
  let rm (f : Operand → Instr) : Ext := .rm (some .word) f
  rowGroup
    [rm (.incRm false), rm (.decRm false), rm .callNearInd, .memOnly .callFarInd,
     rm .jmpNearInd, .memOnly .jmpFarInd, rm .pushRm, .reserved]

/-- `1101_1xxx` (40_decoder_prefixes R157, `ESC`). -/
def rowEsc (x : BitVec 3) : FirstByte :=
  .body (.modrm fun yyy => .rm none fun op => .esc (x ++ yyy) op)

/-- `00..0F` (30_encoding R106). -/
def opcodeRow0 : List FirstByte :=
  rowsDW (.addRmReg false) ++ rowsAcc .addAccImm ++ [rowOp (.pushSreg .es), rowOp (.popSreg .es)] ++
  rowsDW (.orRmReg false) ++ rowsAcc .orAccImm ++ [rowOp (.pushSreg .cs), rowOp (.unknown 0x0F)]

/-- `10..1F` (30_encoding R107). -/
def opcodeRow1 : List FirstByte :=
  rowsDW (.adcRmReg false) ++ rowsAcc .adcAccImm ++ [rowOp (.pushSreg .ss), rowOp (.popSreg .ss)] ++
  rowsDW (.sbbRmReg false) ++ rowsAcc .sbbAccImm ++ [rowOp (.pushSreg .ds), rowOp (.popSreg .ds)]

/-- `20..2F` (30_encoding R108). -/
def opcodeRow2 : List FirstByte :=
  rowsDW (.andRmReg false) ++ rowsAcc .andAccImm ++ [.seg .es, rowOp .daa] ++
  rowsDW (.subRmReg false) ++ rowsAcc .subAccImm ++ [.seg .cs, rowOp .das]

/-- `30..3F` (30_encoding R109). -/
def opcodeRow3 : List FirstByte :=
  rowsDW (.xorRmReg false) ++ rowsAcc .xorAccImm ++ [.seg .ss, rowOp .aaa] ++
  rowsDW .cmpRmReg ++ rowsAcc .cmpAccImm ++ [.seg .ds, rowOp .aas]

/-- `40..4F` (30_encoding R110). -/
def opcodeRow4 : List FirstByte := rowsReg .incReg ++ rowsReg .decReg

/-- `50..5F` (30_encoding R111). -/
def opcodeRow5 : List FirstByte := rowsReg .pushReg ++ rowsReg .popReg

/-- `60..6F` (30_encoding R112). -/
def opcodeRow6 : List FirstByte :=
  [0x60, 0x61, 0x62, 0x63, 0x64, 0x65, 0x66, 0x67, 0x68, 0x69, 0x6A, 0x6B, 0x6C, 0x6D, 0x6E, 0x6F].map
    fun b => rowOp (.unknown b)

/-- `70..7F` (30_encoding R113). -/
def opcodeRow7 : List FirstByte :=
  [Instr.jo, .jno, .jb, .jnb, .je, .jne, .jbe, .jnbe, .js, .jns, .jp, .jnp, .jl, .jnl, .jle, .jnle].map
    fun f => .body (.byte f)

/-- `80..8F` (30_encoding R114). -/
def opcodeRow8 : List FirstByte :=
  [immGroup (extImm8 .byte) true, immGroup extImm16 true, immGroup (extImm8 .byte) false,
   immGroup (extImm8 .word) false] ++
  rowsW .testRmReg ++ rowsW (.xchgRmReg false) ++ rowsDW .movRmReg ++
  [rowSreg fun s op => .movRmSreg op s, rowMemOnly .lea, rowSreg .movSregRm, rowGroup [.rm (some .word) .popRm]]

/-- `90..9F` (30_encoding R115). -/
def opcodeRow9 : List FirstByte :=
  rowsReg .xchgAccReg ++
  [rowOp .cbw, rowOp .cwd, .body (.far .callFar), rowOp .wait, rowOp .pushf, rowOp .popf, rowOp .sahf, rowOp .lahf]

/-- `A0..AF` (30_encoding R116). -/
def opcodeRowA : List FirstByte :=
  [.body (.accMem .byte (.movAccMem .byte)), .body (.accMem .word (.movAccMem .word)),
   .body (.accMem .byte (.movMemAcc .byte)), .body (.accMem .word (.movMemAcc .word))] ++
  [rowOp (.movs .byte .none), rowOp (.movs .word .none), rowOp (.cmps .byte .none), rowOp (.cmps .word .none)] ++
  rowsAcc .testAccImm ++
  [rowOp (.stos .byte .none), rowOp (.stos .word .none), rowOp (.lods .byte .none), rowOp (.lods .word .none),
   rowOp (.scas .byte .none), rowOp (.scas .word .none)]

/-- `B0..BF` (30_encoding R117). -/
def opcodeRowB : List FirstByte :=
  ([.al, .cl, .dl, .bl, .ah, .ch, .dh, .bh].map fun r => .body (.byte fun b => .movRegImm (.reg8 r) (.b b))) ++
  ([.ax, .cx, .dx, .bx, .sp, .bp, .si, .di].map fun r => .body (.word fun v => .movRegImm (.reg16 r) (.w v)))

/-- `C0..CF` (30_encoding R118). -/
def opcodeRowC : List FirstByte :=
  [rowOp (.unknown 0xC0), rowOp (.unknown 0xC1), .body (.word .retNearImm), rowOp .retNear,
   rowMemOnly .les, rowMemOnly .lds, rowGroup [extImm .byte .movRmImm], rowGroup [extImm .word .movRmImm]] ++
  [rowOp (.unknown 0xC8), rowOp (.unknown 0xC9), .body (.word .retFarImm), rowOp .retFar,
   rowOp .int3, .body (.byte .int), rowOp .into, rowOp .iret]

/-- `D0..DF` (30_encoding R119). -/
def opcodeRowD : List FirstByte :=
  [shiftGroup .byte .one, shiftGroup .word .one, shiftGroup .byte .cl, shiftGroup .word .cl,
   .body (.op0A .aam), .body (.op0A .aad), rowOp (.unknown 0xD6), rowOp .xlat] ++
  [0, 1, 2, 3, 4, 5, 6, 7].map rowEsc

/-- `E0..EF` (30_encoding R120). -/
def opcodeRowE : List FirstByte :=
  [.body (.byte .loopnz), .body (.byte .loopz), .body (.byte .loop), .body (.byte .jcxz),
   .body (.byte (.inFixed .byte)), .body (.byte (.inFixed .word)),
   .body (.byte (.outFixed .byte)), .body (.byte (.outFixed .word))] ++
  [.body (.word .callNear), .body (.word .jmpNear), .body (.far .jmpFar), .body (.byte .jmpShort),
   rowOp (.inVar .byte), rowOp (.inVar .word), rowOp (.outVar .byte), rowOp (.outVar .word)]

/-- `F0..FF` (30_encoding R121). -/
def opcodeRowF : List FirstByte :=
  [.lock, rowOp (.unknown 0xF1), .rep .repne, .rep .rep, rowOp .hlt, rowOp .cmc, mathGroup .byte, mathGroup .word] ++
  [rowOp .clc, rowOp .stc, rowOp .cli, rowOp .sti, rowOp .cld, rowOp .std, incDecGroup8, incDecGroup16]

/-- The opcode map: sixteen rows of sixteen first bytes (30_encoding R106 to R121). -/
def opcodeMap : List (List FirstByte) :=
  [opcodeRow0, opcodeRow1, opcodeRow2, opcodeRow3, opcodeRow4, opcodeRow5, opcodeRow6, opcodeRow7] ++
  [opcodeRow8, opcodeRow9, opcodeRowA, opcodeRowB, opcodeRowC, opcodeRowD, opcodeRowE, opcodeRowF]

/-- The entry of a first byte. The map has an entry for every byte, so the defaults are never taken. -/
def firstByte (b : Byte) : FirstByte :=
  (opcodeMap.getD (b.toNat / 16) []).getD (b.toNat % 16) (rowOp (.unknown b))

/-! ### The decoder -/

/-- The reason a reserved second byte raises, `none` where it is not reserved (30_encoding R128 (a) to (h),
40_decoder_prefixes R159). -/
def Format.reservedReason (f : Format) (m : Byte) : Option Malformed :=
  match f with
  | .op0A _ => if m = 0x0A then none else some .reservedEncoding
  | .modrm sel =>
    match sel (ModRM.reg m) with
    | .reserved => some .reservedEncoding
    | .memOnly _ => if ModRM.mod m = 3 then some .registerWhereMemoryRequired else none
    | .rm _ _ => none
    | .rmImm8 _ _ => none
    | .rmImm16 _ => none
  | .op _ => none
  | .byte _ => none
  | .word _ => none
  | .far _ => none
  | .accMem _ _ => none

/-- The reason the first two bytes of an instruction raise, if they are one of the reserved rows (30_encoding R128). -/
def reservedReason (b0 b1 : Byte) : Option Malformed :=
  match firstByte b0 with
  | .body f => f.reservedReason b1
  | .seg _ => none
  | .lock => none
  | .rep _ => none

/-- The displacement bytes after a ModRM byte (30_encoding R95, 40_decoder_prefixes R155). -/
def decodeDisp (mod : BitVec 2) (rm : BitVec 3) (bs : List Byte) : Except Malformed (Disp × List Byte) :=
  if mod = 0 ∧ rm ≠ 6 then .ok (.none, bs)
  else if mod = 1 then
    match bs with
    | b :: rest => .ok (.d8 b, rest)
    | [] => .error .truncated
  else
    match bs with
    | lo :: hi :: rest => .ok (.d16 (concatBytes hi lo), rest)
    | [_] => .error .truncated
    | [] => .error .truncated

/-- The effective address of `mod != 11`, with the pending segment override applied (40_decoder_prefixes R147, R154). -/
def decodeEa (seg : Option Sreg) (size : Option Width) (m : Byte) (bs : List Byte) :
    Except Malformed (Ea × List Byte) :=
  match decodeDisp (ModRM.mod m) (ModRM.rm m) bs with
  | .ok (disp, rest) => .ok (Ea.mk (EaKind.ofCode (ModRM.mod m) (ModRM.rm m)) disp seg size, rest)
  | .error e => .error e

/-- The r/m operand of a ModRM byte (40_decoder_prefixes R154): `Reg8` for `size = 1`, `Reg16` otherwise. -/
def decodeRm (seg : Option Sreg) (size : Option Width) (m : Byte) (bs : List Byte) :
    Except Malformed (Operand × List Byte) :=
  if ModRM.mod m = 3 then .ok (regOperand (size.getD .word) (ModRM.rm m), bs)
  else
    match decodeEa seg size m bs with
    | .ok (ea, rest) => .ok (.mem ea, rest)
    | .error e => .error e

/-- `ReadImm8`, `ReadU8` (40_decoder_prefixes R156). -/
def readByte (bs : List Byte) : Except Malformed (Byte × List Byte) :=
  match bs with
  | b :: rest => .ok (b, rest)
  | [] => .error .truncated

/-- `ReadImm16`, `ReadU16`, little-endian (40_decoder_prefixes R156). -/
def readWord (bs : List Byte) : Except Malformed (Word × List Byte) :=
  match bs with
  | lo :: hi :: rest => .ok (concatBytes hi lo, rest)
  | [_] => .error .truncated
  | [] => .error .truncated

/-- What the ModRM byte selected, the displacement, then the immediate (40_decoder_prefixes R157). -/
def decodeExt (seg : Option Sreg) (m : Byte) (bs : List Byte) : Ext → Except Malformed (Instr × List Byte)
  | .reserved => .error .reservedEncoding
  | .rm size f => do
    let (op, rest) ← decodeRm seg size m bs
    return (f op, rest)
  | .rmImm8 w f => do
    let (op, rest) ← decodeRm seg (some w) m bs
    let (b, rest) ← readByte rest
    return (f op b, rest)
  | .rmImm16 f => do
    let (op, rest) ← decodeRm seg (some .word) m bs
    let (v, rest) ← readWord rest
    return (f op v, rest)
  | .memOnly f =>
    if ModRM.mod m = 3 then .error .registerWhereMemoryRequired
    else do
      let (ea, rest) ← decodeEa seg none m bs
      return (f ea, rest)

/-- `DecodeBody` (40_decoder_prefixes R157): the bytes after the opcode byte. -/
def decodeBody (seg : Option Sreg) (f : Format) (bs : List Byte) : Except Malformed (Instr × List Byte) :=
  match f with
  | .op i => .ok (i, bs)
  | .byte g => do
    let (b, rest) ← readByte bs
    return (g b, rest)
  | .word g => do
    let (v, rest) ← readWord bs
    return (g v, rest)
  | .far g => do
    let (off, rest) ← readWord bs
    let (sg, rest) ← readWord rest
    return (g sg off, rest)
  | .op0A i => do
    let (b, rest) ← readByte bs
    if b = 0x0A then return (i, rest) else .error .reservedEncoding
  | .accMem w g => do
    let (v, rest) ← readWord bs
    return (g (Ea.mk .direct (.d16 v) seg (some w)), rest)
  | .modrm sel => do
    let (m, rest) ← readByte bs
    decodeExt seg m rest (sel (ModRM.reg m))

/-- The decode context (40_decoder_prefixes R141): the pending prefix values. Cursor and start are the byte list's. -/
structure Ctx where
  seg  : Option Sreg
  lock : Bool
  rep  : Rep
deriving DecidableEq, Repr

/-- The empty context a decode starts with (40_decoder_prefixes R140). -/
def Ctx.empty : Ctx := Ctx.mk none false .none

/-- After the body: `ConsumeLock`, then the check that nothing is left pending, `ConsumeRep` draining the repeat
(40_decoder_prefixes R148, R149, R162). The segment override was applied by the body; it is left pending exactly
when the record has no memory operand (R147). -/
def Ctx.finish (lk : Lockable) (c : Ctx) (i : Instr) : Except Malformed Instr := do
  let i ←
    if c.lock then
      match i.consumeLock lk with
      | some (true, j) => .ok j
      | some (false, _) => .error .lockNotPermitted
      | none => .error .unconsumedPrefix
    else .ok i
  if c.seg.isSome && i.mem?.isNone then .error .unconsumedPrefix
  else if c.rep = .none then .ok i
  else
    match i.consumeRep c.rep with
    | some j => .ok j
    | none => .error .unconsumedPrefix

/-- The loop of `DecodeOne` (40_decoder_prefixes R140, R142 to R144), over the bytes from the cursor on. It answers
the record and the bytes after it; `lk` is the parameter `LOCKABLE`. -/
def decodeFrom (lk : Lockable) (c : Ctx) : List Byte → Except Malformed (Instr × List Byte)
  | [] => .error .truncated
  | b :: bs =>
    match firstByte b with
    | .seg s => if c.seg.isSome then .error .prefixAlreadySet else decodeFrom lk (Ctx.mk (some s) c.lock c.rep) bs
    | .lock => if c.lock then .error .prefixAlreadySet else decodeFrom lk (Ctx.mk c.seg true c.rep) bs
    | .rep r => if c.rep ≠ .none then .error .prefixAlreadySet else decodeFrom lk (Ctx.mk c.seg c.lock r) bs
    | .body f =>
      match decodeBody c.seg f bs with
      | .error e => .error e
      | .ok (i, rest) =>
        match c.finish lk i with
        | .error e => .error e
        | .ok j => .ok (j, rest)

/-- `DecodeOne` (40_decoder_prefixes R140) on the bytes from the start offset on. -/
def decodeOne (lk : Lockable) (bs : List Byte) : Except Malformed (Instr × List Byte) := decodeFrom lk Ctx.empty bs

/-- The row of spec/opcode_table.json that the bytes begin with, read as an `Instr` (log 7): a prefix byte in front
of what follows it, a reserved pair, or the record of the body. `decodeOne` folds prefixes; this does not. -/
def readInstr : List Byte → Except Malformed (Instr × List Byte)
  | [] => .error .truncated
  | b :: bs =>
    match firstByte b with
    | .seg s =>
      match readInstr bs with
      | .ok (i, rest) => .ok (.seg s i, rest)
      | .error e => .error e
    | .lock =>
      match readInstr bs with
      | .ok (i, rest) => .ok (.lock i, rest)
      | .error e => .error e
    | .rep r =>
      match readInstr bs with
      | .ok (i, rest) => .ok (if r = .repne then .repne i else .rep i, rest)
      | .error e => .error e
    | .body f =>
      match bs with
      | b1 :: rest =>
        match f.reservedReason b1 with
        | some _ => .ok (.reserved b b1, rest)
        | none => decodeBody none f bs
      | [] => decodeBody none f bs

/-- The bytes of a number, least significant first. -/
def leBytes (n w : Nat) : List Byte := (List.range n).map fun k => BitVec.ofNat 8 (w / 256 ^ k)

/-- The bytes of a table word: bit 0 is the least significant bit of the first byte; eight zero bytes stand for
operand bytes the table gives no bits (no instruction is longer than eight bytes, 00_scope R7). -/
def tableBytes (nbits w : Nat) : List Byte := leBytes (nbits / 8) w ++ List.replicate 8 0

/-- The instruction the decoder reads from a table word. -/
def decodeTableWord (nbits w : Nat) : Option Instr :=
  match readInstr (tableBytes nbits w) with
  | .ok (i, _) => some i
  | .error _ => none

/-! ### Lengths -/

/-- Bytes of a displacement (30_encoding R95). -/
def Disp.size : Disp → Nat
  | .none => 0
  | .d8 _ => 1
  | .d16 _ => 2

/-- Bytes of an immediate. -/
def Imm.size : Imm → Nat
  | .b _ => 1
  | .w _ => 2

/-- The ModRM byte of an effective address and its displacement. -/
def Ea.length (ea : Ea) : Nat := 1 + ea.disp.size

/-- The ModRM byte and the displacement of an r/m operand. -/
def Operand.rmLength : Operand → Nat
  | .reg8 _ => 1
  | .reg16 _ => 1
  | .mem ea => ea.length

/-- The ModRM byte and the displacement of a two-operand form: one of the two is a register. -/
def pairLength (op1 op2 : Operand) : Nat := if op2.isMem then op2.rmLength else op1.rmLength

/-- Length without prefixes (30_encoding R93). -/
def Instr.bodyLength : Instr → Nat
  | .movRmReg a b => 1 + pairLength a b
  | .movRmImm a imm => 1 + a.rmLength + imm.size
  | .movRegImm _ imm => 1 + imm.size
  | .movAccMem _ _ => 3
  | .movMemAcc _ _ => 3
  | .movSregRm _ a => 1 + a.rmLength
  | .movRmSreg a _ => 1 + a.rmLength
  | .pushRm a => 1 + a.rmLength
  | .popRm a => 1 + a.rmLength
  | .xchgRmReg _ a b => 1 + pairLength a b
  | .inFixed _ _ => 2
  | .outFixed _ _ => 2
  | .lea _ a => 1 + a.length
  | .lds _ a => 1 + a.length
  | .les _ a => 1 + a.length
  | .addRmReg _ a b => 1 + pairLength a b
  | .addRmImm _ a imm => 1 + a.rmLength + imm.size
  | .addAccImm imm => 1 + imm.size
  | .adcRmReg _ a b => 1 + pairLength a b
  | .adcRmImm _ a imm => 1 + a.rmLength + imm.size
  | .adcAccImm imm => 1 + imm.size
  | .incRm _ a => 1 + a.rmLength
  | .subRmReg _ a b => 1 + pairLength a b
  | .subRmImm _ a imm => 1 + a.rmLength + imm.size
  | .subAccImm imm => 1 + imm.size
  | .sbbRmReg _ a b => 1 + pairLength a b
  | .sbbRmImm _ a imm => 1 + a.rmLength + imm.size
  | .sbbAccImm imm => 1 + imm.size
  | .decRm _ a => 1 + a.rmLength
  | .neg _ a => 1 + a.rmLength
  | .cmpRmReg a b => 1 + pairLength a b
  | .cmpRmImm a imm => 1 + a.rmLength + imm.size
  | .cmpAccImm imm => 1 + imm.size
  | .mul a => 1 + a.rmLength
  | .imul a => 1 + a.rmLength
  | .aam => 2
  | .div a => 1 + a.rmLength
  | .idiv a => 1 + a.rmLength
  | .aad => 2
  | .not _ a => 1 + a.rmLength
  | .shl a _ => 1 + a.rmLength
  | .shr a _ => 1 + a.rmLength
  | .sar a _ => 1 + a.rmLength
  | .rol a _ => 1 + a.rmLength
  | .ror a _ => 1 + a.rmLength
  | .rcl a _ => 1 + a.rmLength
  | .rcr a _ => 1 + a.rmLength
  | .andRmReg _ a b => 1 + pairLength a b
  | .andRmImm _ a imm => 1 + a.rmLength + imm.size
  | .andAccImm imm => 1 + imm.size
  | .testRmReg a b => 1 + pairLength a b
  | .testRmImm a imm => 1 + a.rmLength + imm.size
  | .testAccImm imm => 1 + imm.size
  | .orRmReg _ a b => 1 + pairLength a b
  | .orRmImm _ a imm => 1 + a.rmLength + imm.size
  | .orAccImm imm => 1 + imm.size
  | .xorRmReg _ a b => 1 + pairLength a b
  | .xorRmImm _ a imm => 1 + a.rmLength + imm.size
  | .xorAccImm imm => 1 + imm.size
  | .callNear _ => 3
  | .callNearInd a => 1 + a.rmLength
  | .callFar _ _ => 5
  | .callFarInd a => 1 + a.length
  | .jmpNear _ => 3
  | .jmpShort _ => 2
  | .jmpNearInd a => 1 + a.rmLength
  | .jmpFar _ _ => 5
  | .jmpFarInd a => 1 + a.length
  | .retNearImm _ => 3
  | .retFarImm _ => 3
  | .je _ => 2
  | .jl _ => 2
  | .jle _ => 2
  | .jb _ => 2
  | .jbe _ => 2
  | .jp _ => 2
  | .jo _ => 2
  | .js _ => 2
  | .jne _ => 2
  | .jnl _ => 2
  | .jnle _ => 2
  | .jnb _ => 2
  | .jnbe _ => 2
  | .jnp _ => 2
  | .jno _ => 2
  | .jns _ => 2
  | .loop _ => 2
  | .loopz _ => 2
  | .loopnz _ => 2
  | .jcxz _ => 2
  | .int _ => 2
  | .esc _ a => 1 + a.rmLength
  | .pushReg _ | .pushSreg _ | .popReg _ | .popSreg _ | .xchgAccReg _ | .inVar _ | .outVar _ | .xlat | .lahf
  | .sahf | .pushf | .popf | .incReg _ | .aaa | .daa | .decReg _ | .aas | .das | .cbw | .cwd | .movs _ _
  | .cmps _ _ | .scas _ _ | .lods _ _ | .stos _ _ | .retNear | .retFar | .int3 | .into | .iret | .clc | .cmc | .stc
  | .cld | .std | .cli | .sti | .hlt | .wait | .unknown _ => 1
  | .reserved _ _ => 2
  | .seg _ i => 1 + i.bodyLength
  | .lock i => 1 + i.bodyLength
  | .repne i => 1 + i.bodyLength
  | .rep i => 1 + i.bodyLength

/-- The prefix bytes folded into a record: one for a lock, one for an override, one for a repeat (30_encoding R94). -/
def Instr.prefixLength (i : Instr) : Nat :=
  (if i.isLocked then 1 else 0) + (if i.segOverride.isSome then 1 else 0) + (if i.repField = .none then 0 else 1)

/-- `byteLength` (30_encoding R94, 40_decoder_prefixes R150). -/
def Instr.byteLength (i : Instr) : Nat := i.prefixLength + i.bodyLength

/-! ### The encoder -/

/-- The bit `w` (30_encoding R91). -/
def Width.bit : Width → Byte
  | .byte => 0
  | .word => 1

/-- The bit `v` in its place (30_encoding R91). -/
def ShiftCount.bits : ShiftCount → Byte
  | .one => 0
  | .cl => 2

/-- `Wd` of one operand (41_operands_addressing R180); a memory operand of no size counts as word, as
`Reg16` does in the forms that have none (log 12). -/
def Operand.width : Operand → Width
  | .reg8 _ => .byte
  | .reg16 _ => .word
  | .mem ea => ea.size.getD .word

/-- `Wd` of a two-operand record (41_operands_addressing R180): a register decides. -/
def pairWidth (op1 op2 : Operand) : Width := if op1.isMem then op2.width else op1.width

/-- `Wd` of an accumulator-immediate record: the accumulator it names (40_decoder_prefixes R157). -/
def Imm.width : Imm → Width
  | .b _ => .byte
  | .w _ => .word

/-- The low three opcode bits of a register number. -/
def Reg16.bits (r : Reg16) : Byte := r.code.setWidth 8

/-- A register operand's number (30_encoding R97). -/
def Operand.regCode : Operand → BitVec 3
  | .reg8 r => r.code
  | .reg16 r => r.code
  | .mem _ => 0

/-- A segment number in its place in the opcode byte (30_encoding R91). -/
def Sreg.bits (s : Sreg) : Byte := s.code.setWidth 8 <<< 3

/-- The bytes of a word, low byte first (40_decoder_prefixes R156). -/
def encodeWord (w : Word) : List Byte := [loByte w, hiByte w]

/-- Immediate bytes. -/
def encodeImm : Imm → List Byte
  | .b v => [v]
  | .w v => encodeWord v

/-- The ModRM byte of an effective address and its displacement (30_encoding R95, R96). -/
def encodeEa (reg : BitVec 3) (ea : Ea) : List Byte :=
  match ea.disp with
  | .none => [ModRM.byte 0 reg ea.kind.code]
  | .d8 b => [ModRM.byte 1 reg ea.kind.code, b]
  | .d16 w => ModRM.byte (if ea.kind = .direct then 0 else 2) reg ea.kind.code :: encodeWord w

/-- The ModRM byte of an r/m operand and its displacement (30_encoding R95). -/
def encodeRm (reg : BitVec 3) : Operand → List Byte
  | .reg8 r => [ModRM.byte 3 reg r.code]
  | .reg16 r => [ModRM.byte 3 reg r.code]
  | .mem ea => encodeEa reg ea

/-- A `MODRM_DW` form: `d = 1` only where the source is in memory (both senses are accepted between two registers,
30_encoding R129; the encoder chooses `d = 0`, log 12). -/
def encodeDW (base : Byte) (op1 op2 : Operand) : List Byte :=
  if op2.isMem then (base ||| 2 ||| (pairWidth op1 op2).bit) :: encodeRm op1.regCode op2
  else (base ||| (pairWidth op1 op2).bit) :: encodeRm op2.regCode op1

/-- A `MODRM_W` form. -/
def encodeW (base : Byte) (op1 op2 : Operand) : List Byte :=
  (base ||| (pairWidth op1 op2).bit) :: encodeRm op2.regCode op1

/-- `MODRM_EXT_W`. -/
def encodeExt (base : Byte) (ext : BitVec 3) (op : Operand) : List Byte :=
  (base ||| op.width.bit) :: encodeRm ext op

/-- `MODRM_EXT_SW_IMM` (30_encoding R91): `80` for bytes, `81` for a word immediate, `83` for a sign-extended byte. -/
def encodeSW (ext : BitVec 3) (op : Operand) (imm : Imm) : List Byte :=
  (match op.width, imm with
   | .byte, _ => 0x80
   | .word, .w _ => 0x81
   | .word, .b _ => 0x83) :: (encodeRm ext op ++ encodeImm imm)

/-- `MODRM_EXT_W_IMM`. -/
def encodeExtImm (base : Byte) (ext : BitVec 3) (op : Operand) (imm : Imm) : List Byte :=
  (base ||| op.width.bit) :: (encodeRm ext op ++ encodeImm imm)

/-- `MODRM_EXT_VW`. -/
def encodeVW (ext : BitVec 3) (op : Operand) (count : ShiftCount) : List Byte :=
  (0xD0 ||| count.bits ||| op.width.bit) :: encodeRm ext op

/-- `ACC_IMM`. -/
def encodeAcc (base : Byte) (imm : Imm) : List Byte := (base ||| imm.width.bit) :: encodeImm imm

/-- `REG_IMM`: `1011_wreg`. -/
def encodeRegImm (op : Operand) (imm : Imm) : List Byte :=
  (0xB0 ||| (op.width.bit <<< 3) ||| op.regCode.setWidth 8) :: encodeImm imm

/-- `ACC_MEM`: the opcode and the direct address. -/
def encodeAccMem (base : Byte) (w : Width) (ea : Ea) : List Byte :=
  (base ||| w.bit) ::
    (match ea.disp with
     | .d16 a => encodeWord a
     | .d8 _ => encodeWord 0
     | .none => encodeWord 0)

/-- The bytes of an instruction without its folded prefixes (30_encoding R93, R105). -/
def encodeBody : Instr → List Byte
  | .movRmReg a b => encodeDW 0x88 a b
  | .movRmImm a imm => encodeExtImm 0xC6 0 a imm
  | .movRegImm a imm => encodeRegImm a imm
  | .movAccMem w ea => encodeAccMem 0xA0 w ea
  | .movMemAcc w ea => encodeAccMem 0xA2 w ea
  | .movSregRm s a => 0x8E :: encodeRm (s.code.setWidth 3) a
  | .movRmSreg a s => 0x8C :: encodeRm (s.code.setWidth 3) a
  | .pushRm a => 0xFF :: encodeRm 6 a
  | .pushReg r => [0x50 ||| r.bits]
  | .pushSreg s => [0x06 ||| s.bits]
  | .popRm a => 0x8F :: encodeRm 0 a
  | .popReg r => [0x58 ||| r.bits]
  | .popSreg s => [0x07 ||| s.bits]
  | .xchgRmReg _ a b => encodeW 0x86 a b
  | .xchgAccReg r => [0x90 ||| r.bits]
  | .inFixed w p => [0xE4 ||| w.bit, p]
  | .inVar w => [0xEC ||| w.bit]
  | .outFixed w p => [0xE6 ||| w.bit, p]
  | .outVar w => [0xEE ||| w.bit]
  | .xlat => [0xD7]
  | .lea r ea => 0x8D :: encodeEa r.code ea
  | .lds r ea => 0xC5 :: encodeEa r.code ea
  | .les r ea => 0xC4 :: encodeEa r.code ea
  | .lahf => [0x9F]
  | .sahf => [0x9E]
  | .pushf => [0x9C]
  | .popf => [0x9D]
  | .addRmReg _ a b => encodeDW 0x00 a b
  | .addRmImm _ a imm => encodeSW 0 a imm
  | .addAccImm imm => encodeAcc 0x04 imm
  | .adcRmReg _ a b => encodeDW 0x10 a b
  | .adcRmImm _ a imm => encodeSW 2 a imm
  | .adcAccImm imm => encodeAcc 0x14 imm
  | .incRm _ a => encodeExt 0xFE 0 a
  | .incReg r => [0x40 ||| r.bits]
  | .aaa => [0x37]
  | .daa => [0x27]
  | .subRmReg _ a b => encodeDW 0x28 a b
  | .subRmImm _ a imm => encodeSW 5 a imm
  | .subAccImm imm => encodeAcc 0x2C imm
  | .sbbRmReg _ a b => encodeDW 0x18 a b
  | .sbbRmImm _ a imm => encodeSW 3 a imm
  | .sbbAccImm imm => encodeAcc 0x1C imm
  | .decRm _ a => encodeExt 0xFE 1 a
  | .decReg r => [0x48 ||| r.bits]
  | .neg _ a => encodeExt 0xF6 3 a
  | .cmpRmReg a b => encodeDW 0x38 a b
  | .cmpRmImm a imm => encodeSW 7 a imm
  | .cmpAccImm imm => encodeAcc 0x3C imm
  | .aas => [0x3F]
  | .das => [0x2F]
  | .mul a => encodeExt 0xF6 4 a
  | .imul a => encodeExt 0xF6 5 a
  | .aam => [0xD4, 0x0A]
  | .div a => encodeExt 0xF6 6 a
  | .idiv a => encodeExt 0xF6 7 a
  | .aad => [0xD5, 0x0A]
  | .cbw => [0x98]
  | .cwd => [0x99]
  | .not _ a => encodeExt 0xF6 2 a
  | .shl a c => encodeVW 4 a c
  | .shr a c => encodeVW 5 a c
  | .sar a c => encodeVW 7 a c
  | .rol a c => encodeVW 0 a c
  | .ror a c => encodeVW 1 a c
  | .rcl a c => encodeVW 2 a c
  | .rcr a c => encodeVW 3 a c
  | .andRmReg _ a b => encodeDW 0x20 a b
  | .andRmImm _ a imm => encodeSW 4 a imm
  | .andAccImm imm => encodeAcc 0x24 imm
  | .testRmReg a b => encodeW 0x84 a b
  | .testRmImm a imm => encodeExtImm 0xF6 0 a imm
  | .testAccImm imm => encodeAcc 0xA8 imm
  | .orRmReg _ a b => encodeDW 0x08 a b
  | .orRmImm _ a imm => encodeSW 1 a imm
  | .orAccImm imm => encodeAcc 0x0C imm
  | .xorRmReg _ a b => encodeDW 0x30 a b
  | .xorRmImm _ a imm => encodeSW 6 a imm
  | .xorAccImm imm => encodeAcc 0x34 imm
  | .movs w _ => [0xA4 ||| w.bit]
  | .cmps w _ => [0xA6 ||| w.bit]
  | .scas w _ => [0xAE ||| w.bit]
  | .lods w _ => [0xAC ||| w.bit]
  | .stos w _ => [0xAA ||| w.bit]
  | .callNear d => 0xE8 :: encodeWord d
  | .callNearInd a => 0xFF :: encodeRm 2 a
  | .callFar s o => 0x9A :: (encodeWord o ++ encodeWord s)
  | .callFarInd ea => 0xFF :: encodeEa 3 ea
  | .jmpNear d => 0xE9 :: encodeWord d
  | .jmpShort d => [0xEB, d]
  | .jmpNearInd a => 0xFF :: encodeRm 4 a
  | .jmpFar s o => 0xEA :: (encodeWord o ++ encodeWord s)
  | .jmpFarInd ea => 0xFF :: encodeEa 5 ea
  | .retNear => [0xC3]
  | .retNearImm n => 0xC2 :: encodeWord n
  | .retFar => [0xCB]
  | .retFarImm n => 0xCA :: encodeWord n
  | .je d => [0x74, d]
  | .jl d => [0x7C, d]
  | .jle d => [0x7E, d]
  | .jb d => [0x72, d]
  | .jbe d => [0x76, d]
  | .jp d => [0x7A, d]
  | .jo d => [0x70, d]
  | .js d => [0x78, d]
  | .jne d => [0x75, d]
  | .jnl d => [0x7D, d]
  | .jnle d => [0x7F, d]
  | .jnb d => [0x73, d]
  | .jnbe d => [0x77, d]
  | .jnp d => [0x7B, d]
  | .jno d => [0x71, d]
  | .jns d => [0x79, d]
  | .loop d => [0xE2, d]
  | .loopz d => [0xE1, d]
  | .loopnz d => [0xE0, d]
  | .jcxz d => [0xE3, d]
  | .int t => [0xCD, t]
  | .int3 => [0xCC]
  | .into => [0xCE]
  | .iret => [0xCF]
  | .clc => [0xF8]
  | .cmc => [0xF5]
  | .stc => [0xF9]
  | .cld => [0xFC]
  | .std => [0xFD]
  | .cli => [0xFA]
  | .sti => [0xFB]
  | .hlt => [0xF4]
  | .wait => [0x9B]
  | .esc c a => (0xD8 ||| (c.extractLsb' 3 3).setWidth 8) :: encodeRm (c.extractLsb' 0 3) a
  | .unknown b => [b]
  | .reserved b0 b1 => [b0, b1]
  | .seg _ i => encodeBody i
  | .lock i => encodeBody i
  | .repne i => encodeBody i
  | .rep i => encodeBody i

/-- The repeat byte of a string record (30_encoding R131). -/
def Rep.bytes : Rep → List Byte
  | .none => []
  | .rep => [0xF3]
  | .repne => [0xF2]

/-- The prefix bytes of a record, lock before override (any order is accepted, 40_decoder_prefixes R145; log 12). -/
def Instr.prefixBytes (i : Instr) : List Byte :=
  (if i.isLocked then [0xF0] else []) ++ (i.segOverride.elim [] fun s => [s.overrideByte]) ++ i.repField.bytes

/-- The bytes of an instruction: its folded prefixes and its body; a prefix row is its byte in front of what it
prefixes. -/
def encode : Instr → List Byte
  | .seg s i => s.overrideByte :: encode i
  | .lock i => 0xF0 :: encode i
  | .repne i => 0xF2 :: encode i
  | .rep i => 0xF3 :: encode i
  | i => i.prefixBytes ++ encodeBody i

/-- What the decoder makes of a prefix row or a reserved row (log 7): `DecodeOne` on its bytes, with the prefixes
folded into one record (40_decoder_prefixes R145). -/
def Instr.fold (lk : Lockable) (i : Instr) : Except Malformed Instr :=
  match decodeOne lk (encode i) with
  | .ok (j, _) => .ok j
  | .error e => .error e

/-! ### The sweep -/

/-- The decode of the whole program store (10_state R34): one entry per instruction, its start offset and its
record; the first error ends it with its reason and start. `fuel` is at least the number of bytes. -/
def sweepFrom (lk : Lockable) : Nat → Nat → List Byte → Except (Malformed × Nat) (List (Nat × Instr))
  | _, _, [] => .ok []
  | 0, _, _ :: _ => .ok []
  | fuel + 1, off, b :: bs =>
    match decodeOne lk (b :: bs) with
    | .error e => .error (e, off)
    | .ok (i, rest) =>
      match sweepFrom lk fuel (off + ((b :: bs).length - rest.length)) rest with
      | .error e => .error e
      | .ok m => .ok ((off, i) :: m)

/-- The instruction map of a program (10_state R34). -/
def sweep (lk : Lockable) (program : List Byte) : Except (Malformed × Nat) (List (Nat × Instr)) :=
  sweepFrom lk program.length 0 program

/-- The record the map files under an offset, if any (10_state R34, R36). -/
def mapLookup (m : List (Nat × Instr)) (off : Nat) : Option Instr :=
  (m.find? fun e => e.1 == off).map (·.2)

end Sys2Proof
end

