-- ==== Sys2Proof/Machine/State.lean ====
section
/-! DEFINITION. The state of the block (spec 10_state, 20_memory R60 to R62), the reasons a step can stop, the
writes a diff is made of (10_state R38), and reset (10_state R42 to R48, 70_reset_and_hazards R461). -/

namespace Sys2Proof.Machine

/-- The exceptions of the block (60_exceptions section 2). Each is the spec's own, so none is a difference from it. -/
inductive Fault where
  /-- Raised by the sweep of the program store before any step (60_exceptions R431, R433), and by the meaning of a
  reserved row and of a prefix row whose bytes do not decode (log 7). Safe: the spec makes the run end here. -/
  | malformedEncoding (reason : Malformed) (start : Nat)
  /-- Raised by the data-memory interface: the second byte or word of an access beyond 2^20 (60_exceptions R434), or
  a host access out of range, with the value for a write (20_memory R63, R65). Safe: the spec makes the step fail here. -/
  | addressRange (addr : Int) (value : Option Int)
  /-- Raised by DIV and IDIV (60_exceptions R435). Safe: the spec makes the step fail here. -/
  | divideError
deriving DecidableEq, Repr

/-- The reasons the model has no answer. No meaning gives one: every instruction is modelled. -/
inductive Refusal where
  /-- Raised by an arm of `exec` whose instruction has no meaning yet; no arm is left with it. Safe: the model stops. -/
  | notModelled (mnemonic : String)
deriving DecidableEq, Repr

/-- The eight general registers (10_state R20). The byte halves are aliases, not fields (R21). -/
structure Regs where
  ax : Word
  bx : Word
  cx : Word
  dx : Word
  sp : Word
  bp : Word
  si : Word
  di : Word
deriving DecidableEq, Repr

/-- The four segment registers (10_state R23). -/
structure Segs where
  cs : Word
  ds : Word
  es : Word
  ss : Word
deriving DecidableEq, Repr

/-- The nine flags (10_state R24), under the spec's short names. -/
structure Flags where
  CF : Bool
  PF : Bool
  AF : Bool
  ZF : Bool
  SF : Bool
  OF : Bool
  IF : Bool
  DF : Bool
  TF : Bool
deriving DecidableEq, Repr

/-- Data memory (20_memory R62): the non-zero bytes, by strictly rising address. An unlisted address reads as 0,
"unallocated chunks read as all-zero". -/
abbrev Memory := List Host.Cell

/-- The size of the data memory, 2^20 bytes (20_memory R60). -/
abbrev memSize : Nat := 1048576

/-- The canonical form from address `lo` on. -/
def Memory.wfFrom (lo : Nat) : Memory → Bool
  | [] => true
  | (a, v) :: m => decide (lo ≤ a) && decide (a < memSize) && v != 0#8 && Memory.wfFrom (a + 1) m

/-- The canonical form: addresses strictly rising and inside the address space, no entry that is zero. -/
def Memory.wf (m : Memory) : Bool := Memory.wfFrom 0 m

/-- The conditions of 60_exceptions R430 that a state can be in. Decode-failed and faulted are outcomes of a step
(`Fault`), not conditions of a state (log 4). -/
inductive Condition where
  /-- A step may be made. -/
  | running
  /-- `ip` has no mapped instruction; final (10_state R36). -/
  | halted
  /-- The record at `ip` yields the empty diff; the state never changes again (60_exceptions R437). -/
  | stuck
deriving DecidableEq, Repr

/-- The machine: the architectural state of 10_state, the program store and the parameters (00_scope R8), the
condition (60_exceptions R430), and the model's own counter of free draws (log 5). -/
structure State where
  regs      : Regs
  segs      : Segs
  /-- The instruction pointer (10_state R28). -/
  ip        : Word
  flags     : Flags
  mem       : Memory
  /-- The program store `PROGRAM`, never written (10_state R33). -/
  program   : List Byte
  /-- The parameters, never written (00_scope R8; log 3). -/
  cfg       : Config
  /-- How many undefined flag results have been drawn: the MODEL's own field (log 5). -/
  draws     : Nat
  condition : Condition
deriving DecidableEq, Repr

/-- One elementary write of a diff, without its `from` (10_state R38). `draw` is the model's own: it advances the
counter of free draws (log 5). -/
inductive Write where
  | ip (v : Word)
  | reg (r : Reg16) (v : Word)
  | reg8 (r : Reg8) (v : Byte)
  | seg (s : Sreg) (v : Word)
  | flag (f : Flag) (v : Bool)
  | mem (addr : Nat) (v : Byte)
  | draw
deriving DecidableEq, Repr

/-- All registers zero: the default `INIT` (10_state R43). -/
def Regs.zero : Regs := Regs.mk 0 0 0 0 0 0 0 0

/-- All segment registers zero: the default `INIT` (10_state R44). -/
def Segs.zero : Segs := Segs.mk 0 0 0 0

/-- All flags false: the default `INIT` (10_state R45). -/
def Flags.clear : Flags := Flags.mk false false false false false false false false false

/-- The start of a run (70_reset_and_hazards R460): `INIT` with `ip` forced to 0 and the program store set. -/
def State.boot (init : State) (program : List Byte) : State :=
  { init with ip := 0, program := program, condition := .running }

/-- The machine right after reset with the default parameters (70_reset_and_hazards R461). `PROGRAM` has no default
(00_scope R8), so the program store is empty (log 2); the counter of free draws starts at 0 (log 5). -/
def State.reset : State where
  regs      := Regs.zero
  segs      := Segs.zero
  ip        := 0
  flags     := Flags.clear
  mem       := []
  program   := []
  cfg       := Config.default
  draws     := 0
  condition := .running

end Sys2Proof.Machine
end

