-- ==== Sys2Proof/Machine/Ops.lean ====
section
/-! DEFINITION. The shared operations over registers, flags, memory and the stack (spec 10_state, 20_memory,
43_data_transfer R240 and R247), committing a diff, raising an exception, and the software interrupt with the
return from one. -/

namespace Sys2Proof

/-- The 16-bit register a byte half belongs to (10_state R21). -/
def Reg8.parent : Reg8 → Reg16
  | .al => .ax
  | .ah => .ax
  | .cl => .cx
  | .ch => .cx
  | .dl => .dx
  | .dh => .dx
  | .bl => .bx
  | .bh => .bx

/-- A half is bits 15:8 of its register (10_state R21). -/
def Reg8.isHigh : Reg8 → Bool
  | .al => false
  | .cl => false
  | .dl => false
  | .bl => false
  | .ah => true
  | .ch => true
  | .dh => true
  | .bh => true

/-- The bit of each flag in the flags word (10_state R26). -/
def Flag.bit : Flag → Nat
  | .CF => 0
  | .PF => 2
  | .AF => 4
  | .ZF => 6
  | .SF => 7
  | .TF => 8
  | .IF => 9
  | .DF => 10
  | .OF => 11

/-- The nine flags in the order of diff entries (10_state R41). -/
def Flag.all : List Flag := [.CF, .PF, .AF, .ZF, .SF, .OF, .IF, .DF, .TF]

/-- The flags SAHF writes (43_data_transfer R267). -/
def Flag.low : List Flag := [.CF, .PF, .AF, .ZF, .SF]

end Sys2Proof

namespace Sys2Proof.Machine

/-! ### Widths (00_scope R10) -/

/-- `M(w)`. -/
def modulus : Width → Nat
  | .byte => 256
  | .word => 65536

/-- `msb(w)`. -/
def msb : Width → Nat
  | .byte => 7
  | .word => 15

/-- `n = w + 1`: the access size in bytes (41_operands_addressing R180). -/
def accessSize : Width → Nat
  | .byte => 1
  | .word => 2

/-- `conv(v, m)` at width `w` (00_scope R11): the signed value of an unsigned one. -/
def conv (w : Width) (v : Nat) : Int :=
  if v < modulus w / 2 then (v : Int) else (v : Int) - (modulus w : Int)

/-- `n mod M(w)` as an unsigned value (00_scope R10: the floor modulus). -/
def reduce (w : Width) (n : Int) : Nat := (n % (modulus w : Int)).toNat

/-! ### Registers and flags -/

/-- `x[r]` of a general register (10_state R20). -/
def Regs.get (x : Regs) : Reg16 → Word
  | .ax => x.ax
  | .cx => x.cx
  | .dx => x.dx
  | .bx => x.bx
  | .sp => x.sp
  | .bp => x.bp
  | .si => x.si
  | .di => x.di

/-- `x[r] <- v` of a general register (10_state R20). -/
def Regs.set (x : Regs) (r : Reg16) (v : Word) : Regs :=
  match r with
  | .ax => { x with ax := v }
  | .cx => { x with cx := v }
  | .dx => { x with dx := v }
  | .bx => { x with bx := v }
  | .sp => { x with sp := v }
  | .bp => { x with bp := v }
  | .si => { x with si := v }
  | .di => { x with di := v }

/-- `x[s]` of a segment register (10_state R23). -/
def Segs.get (x : Segs) : Sreg → Word
  | .es => x.es
  | .cs => x.cs
  | .ss => x.ss
  | .ds => x.ds

/-- `x[s] <- v` of a segment register (10_state R23). -/
def Segs.set (x : Segs) (s : Sreg) (v : Word) : Segs :=
  match s with
  | .es => { x with es := v }
  | .cs => { x with cs := v }
  | .ss => { x with ss := v }
  | .ds => { x with ds := v }

/-- The value of a flag (10_state R24). -/
def Flags.get (x : Flags) : Flag → Bool
  | .CF => x.CF
  | .PF => x.PF
  | .AF => x.AF
  | .ZF => x.ZF
  | .SF => x.SF
  | .OF => x.OF
  | .IF => x.IF
  | .DF => x.DF
  | .TF => x.TF

/-- Writing a flag (10_state R24). -/
def Flags.set (x : Flags) (f : Flag) (b : Bool) : Flags :=
  match f with
  | .CF => { x with CF := b }
  | .PF => { x with PF := b }
  | .AF => { x with AF := b }
  | .ZF => { x with ZF := b }
  | .SF => { x with SF := b }
  | .OF => { x with OF := b }
  | .IF => { x with IF := b }
  | .DF => { x with DF := b }
  | .TF => { x with TF := b }

/-- `x[r]` (00_scope R12). -/
def State.reg (s : State) (r : Reg16) : Word := s.regs.get r

/-- `x[r]` of a byte half (10_state R21). -/
def State.reg8 (s : State) (r : Reg8) : Byte :=
  if r.isHigh then hiByte (s.reg r.parent) else loByte (s.reg r.parent)

/-- `x[s]` of a segment register (00_scope R12). -/
def State.seg (s : State) (r : Sreg) : Word := s.segs.get r

/-- `flag.F` (00_scope R12). -/
def State.flag (s : State) (f : Flag) : Bool := s.flags.get f

/-- The instruction pointer set. -/
def State.setIp (s : State) (v : Word) : State := { s with ip := v }

/-- A general register set. -/
def State.setReg (s : State) (r : Reg16) (v : Word) : State := { s with regs := s.regs.set r v }

/-- A byte half set, the other half kept (10_state R21). -/
def State.setReg8 (s : State) (r : Reg8) (v : Byte) : State :=
  s.setReg r.parent
    (if r.isHigh then concatBytes v (loByte (s.reg r.parent)) else concatBytes (hiByte (s.reg r.parent)) v)

/-- A segment register set. -/
def State.setSeg (s : State) (r : Sreg) (v : Word) : State := { s with segs := s.segs.set r v }

/-- A flag set. -/
def State.setFlag (s : State) (f : Flag) (b : Bool) : State := { s with flags := s.flags.set f b }

/-! ### Data memory (20_memory) -/

/-- The byte stored at an address, 0 where nothing is listed (20_memory R62). -/
def Memory.read : Memory → Nat → Byte
  | [], _ => 0#8
  | (a, v) :: m, addr => if a = addr then v else Memory.read m addr

/-- The byte at an address becomes `v`, keeping the canonical form. -/
def Memory.write : Memory → Nat → Byte → Memory
  | [], addr, v => if v = 0#8 then [] else [(addr, v)]
  | (a, w) :: m, addr, v =>
    if addr < a then (if v = 0#8 then (a, w) :: m else (addr, v) :: (a, w) :: m)
    else if addr = a then (if v = 0#8 then m else (addr, v) :: m)
    else (a, w) :: Memory.write m addr v

/-- The byte of data memory at an address of the space. -/
def State.byteAt (s : State) (addr : Nat) : Byte := s.mem.read addr

/-- A byte of data memory set; an address outside the space is ignored (no rule of an instruction names one,
20_memory R66, and the host interface checks first). -/
def State.setByte (s : State) (addr : Nat) (v : Byte) : State :=
  if addr < memSize then { s with mem := s.mem.write addr v } else s

/-- `MemReadByte(addr)` (20_memory R63). -/
def memReadByte (s : State) (addr : Nat) : Except Fault Byte :=
  if addr < memSize then .ok (s.byteAt addr) else .error (.addressRange addr none)

/-- `MemRead(addr, w + 1)`, little-endian, `addr + 1` not reduced (20_memory R63, R64). -/
def memRead (s : State) (w : Width) (addr : Nat) : Except Fault Nat :=
  match w with
  | .byte => do
    let lo ← memReadByte s addr
    return lo.toNat
  | .word => do
    let lo ← memReadByte s addr
    let hi ← memReadByte s (addr + 1)
    return lo.toNat + 256 * hi.toNat

/-- `MemWrite(addr, w + 1, v)`: the diff entries, low byte first, after both `from` reads (20_memory R65, R66). -/
def memWrite (s : State) (w : Width) (addr : Nat) (v : Nat) : Except Fault (List Write) :=
  match w with
  | .byte => do
    let _ ← memReadByte s addr
    return [.mem addr (BitVec.ofNat 8 v)]
  | .word => do
    let _ ← memReadByte s addr
    let _ ← memReadByte s (addr + 1)
    return [.mem addr (BitVec.ofNat 8 v), .mem (addr + 1) (BitVec.ofNat 8 (v / 256))]

/-- A host read of data memory (20_memory R63), at any integer. -/
def hostReadByte (s : State) (addr : Int) : Except Fault Byte :=
  if 0 ≤ addr ∧ addr < memSize then .ok (s.byteAt addr.toNat) else .error (.addressRange addr none)

/-- A host write of data memory (20_memory R65, 70_reset_and_hazards R464): address and value are both checked. -/
def hostWriteByte (s : State) (addr v : Int) : Except Fault State :=
  if 0 ≤ addr ∧ addr < memSize ∧ 0 ≤ v ∧ v < 256 then .ok (s.setByte addr.toNat (BitVec.ofInt 8 v))
  else .error (.addressRange addr (some v))

/-- `Phys(seg, off)` (20_memory R70, 41_operands_addressing R188), the floor modulus for a negative offset. -/
def phys (seg : Word) (off : Int) : Nat := (((seg.toNat : Int) * 16 + off) % (memSize : Int)).toNat

/-! ### The diff and its commit (10_state R37 to R40) -/

/-- One entry applied. -/
def Write.apply (s : State) : Write → State
  | .ip v => s.setIp v
  | .reg r v => s.setReg r v
  | .reg8 r v => s.setReg8 r v
  | .seg r v => s.setSeg r v
  | .flag f v => s.setFlag f v
  | .mem addr v => s.setByte addr v
  | .draw => { s with draws := s.draws + 1 }

/-- `Apply(state, diff)`: the entries in order (10_state R40). -/
def commit (ws : List Write) (s : State) : State := ws.foldl Write.apply s

/-- The state at a record whose step is the empty diff: nothing changes, and the block is stuck (60_exceptions R437). -/
def stuck (s : State) : State := { s with condition := .stuck }

/-- A raise: nothing is saved, no vector is read, the step has no next state (60_exceptions R440, 10_state R37). The
block has no trap entry and no return from one (R442). -/
def raise (f : Fault) : Host.Outcome State Fault Refusal := .fault f

/-- The step of a record of kind `k` whose rule gives the diff `d` (43_data_transfer R240 (a)): the empty diff
outside `SIMULATED`, else the diff applied, or the exception. -/
def complete (k : Kind) (s : State) (d : Except Fault (List Write)) : Host.Outcome State Fault Refusal :=
  if k ∈ s.cfg.simulated then
    match d with
    | .error f => raise f
    | .ok [] => .next (stuck s)
    | .ok (e :: ws) => .next (commit (e :: ws) s)
  else .next (stuck s)

/-! ### The instruction pointer (10_state R29, 47_control_transfer R365) -/

/-- `NextIp(rec)`. -/
def nextIp (i : Instr) (s : State) : Word := s.ip + BitVec.ofNat 16 i.byteLength

/-- `Target(rec)` for a signed displacement. -/
def target (i : Instr) (disp : Int) (s : State) : Word := nextIp i s + BitVec.ofInt 16 disp

/-! ### The stack (43_data_transfer R247) -/

/-- The physical address of the `k`-th push of an instruction. -/
def pushAddr (s : State) (k : Nat) : Nat := phys (s.seg .ss) (s.reg .sp - BitVec.ofNat 16 (2 * k)).toNat

/-- The physical address of the `k`-th pop of an instruction. -/
def popAddr (s : State) (k : Nat) : Nat := phys (s.seg .ss) (s.reg .sp + BitVec.ofNat 16 (2 * (k - 1))).toNat

/-- `Push16(v, k)`: the memory entries. -/
def push16 (s : State) (v : Word) (k : Nat) : Except Fault (List Write) := memWrite s .word (pushAddr s k) v.toNat

/-- The one `sp` entry after `k` pushes. -/
def spAfterPush (s : State) (k : Nat) : Write := .reg .sp (s.reg .sp - BitVec.ofNat 16 (2 * k))

/-- `Pop16(k)`. -/
def pop16 (s : State) (k : Nat) : Except Fault Word := do
  let v ← memRead s .word (popAddr s k)
  return BitVec.ofNat 16 v

/-- The one `sp` entry after `k` pops, with the count a RET adds. -/
def spAfterPop (s : State) (k : Nat) (extra : Word) : Write :=
  .reg .sp (s.reg .sp + BitVec.ofNat 16 (2 * k) + extra)

/-! ### The flags word (10_state R26) -/

/-- The mask of the nine flag bits. -/
def flagMask : Word := 0x0FD5

/-- `FlagsWord()`: the flags in their bits, the rest from `FLAG_FILL`. -/
def flagsWord (s : State) : Word :=
  Flag.all.foldl (fun acc f => if s.flag f then acc ||| (1#16 <<< f.bit) else acc) (s.cfg.flagFill &&& ~~~flagMask)

/-- The flag entries of an image, for the flags in a list; `SetFlagsWord(v)` for all nine. -/
def flagsFrom (fs : List Flag) (v : Word) : List Write := fs.map fun f => .flag f (v.getLsbD f.bit)

/-! ### The software interrupt and the return from one (47_control_transfer R400 to R403; log 9) -/

/-- The 8086 meaning of INT, INT3 and INTO: push the flags word, clear IF and TF, push `cs` and the return offset,
load `ip` and `cs` from the vector at physical `4 * type`. -/
def softInterrupt (i : Instr) (type : Byte) (s : State) : Except Fault (List Write) := do
  let m1 ← push16 s (flagsWord s) 1
  let m2 ← push16 s (s.seg .cs) 2
  let m3 ← push16 s (nextIp i s) 3
  let off ← memRead s .word (4 * type.toNat)
  let sg ← memRead s .word (4 * type.toNat + 2)
  return [.ip (BitVec.ofNat 16 off)] ++ m1 ++ m2 ++ m3 ++
    [spAfterPush s 3, .seg .cs (BitVec.ofNat 16 sg), .flag .IF false, .flag .TF false]

/-- The 8086 meaning of IRET: pop `ip`, `cs` and the flags word. -/
def interruptReturn (s : State) : Except Fault (List Write) := do
  let off ← pop16 s 1
  let sg ← pop16 s 2
  let fl ← pop16 s 3
  return [.ip off, .seg .cs sg, spAfterPop s 3 0] ++ flagsFrom Flag.all fl

end Sys2Proof.Machine
end

