-- ==== Sys2Proof/Machine/Operands.lean ====
section
/-! DEFINITION. Operand resolution and effective addresses (spec 41_operands_addressing). -/

namespace Sys2Proof.Machine

/-- `BaseSum(kind)` (41_operands_addressing R185). -/
def baseSum (s : State) : EaKind → Nat
  | .bxSi => (s.reg .bx).toNat + (s.reg .si).toNat
  | .bxDi => (s.reg .bx).toNat + (s.reg .di).toNat
  | .bpSi => (s.reg .bp).toNat + (s.reg .si).toNat
  | .bpDi => (s.reg .bp).toNat + (s.reg .di).toNat
  | .si => (s.reg .si).toNat
  | .di => (s.reg .di).toNat
  | .bx => (s.reg .bx).toNat
  | .bp => (s.reg .bp).toNat
  | .direct => 0

/-- `EaOffset(ea)` (41_operands_addressing R186). -/
def eaOffset (s : State) (ea : Ea) : Int :=
  let raw : Int := (baseSum s ea.kind : Int) + ea.disp.value
  if s.cfg.eaWrap16 then raw % 65536 else raw

/-- The default segment of a category (41_operands_addressing R187). -/
def defaultSeg : EaKind → Sreg
  | .bpSi => .ss
  | .bpDi => .ss
  | .bp => .ss
  | .bxSi => .ds
  | .bxDi => .ds
  | .si => .ds
  | .di => .ds
  | .bx => .ds
  | .direct => .ds

/-- `EaSeg(ea)` (41_operands_addressing R187). -/
def eaSeg (ea : Ea) : Sreg := ea.seg.getD (defaultSeg ea.kind)

/-- `EaPhys(ea)` (41_operands_addressing R188). -/
def eaPhys (s : State) (ea : Ea) : Nat := phys (s.seg (eaSeg ea)) (eaOffset s ea)

/-- The value of an immediate at width `w`: `n mod M(w)` (41_operands_addressing R184). -/
def immVal (w : Width) (imm : Imm) : Nat := reduce w imm.value

/-- `ReadOp(op, w)` (41_operands_addressing R181). -/
def readOp (s : State) (w : Width) : Operand → Except Fault Nat
  | .reg8 r => .ok (s.reg8 r).toNat
  | .reg16 r => .ok (s.reg r).toNat
  | .mem ea => memRead s w (eaPhys s ea)

/-- `WriteOp(op, w, v)` (41_operands_addressing R182): the diff entries for `v mod M(w)`. -/
def writeOp (s : State) (w : Width) (op : Operand) (v : Nat) : Except Fault (List Write) :=
  match op with
  | .reg8 r => .ok [.reg8 r (BitVec.ofNat 8 v)]
  | .reg16 r => .ok [.reg r (BitVec.ofNat 16 v)]
  | .mem ea => memWrite s w (eaPhys s ea) v

/-- `acc(w)`: `al` or `ax` (40_decoder_prefixes R157). -/
def acc : Width → Operand
  | .byte => .reg8 .al
  | .word => .reg16 .ax

/-- The two words of a far pointer in memory: at `EaPhys(ea)` and `EaPhys(ea) + 2`, not reduced
(41_operands_addressing R189). -/
def readFar (s : State) (ea : Ea) : Except Fault (Word × Word) := do
  let off ← memRead s .word (eaPhys s ea)
  let sg ← memRead s .word (eaPhys s ea + 2)
  return (BitVec.ofNat 16 off, BitVec.ofNat 16 sg)

/-- The count of a shift or rotate: 1, or the whole of `cl` (42_alu_flags R210). -/
def shiftCount (s : State) : ShiftCount → Nat
  | .one => 1
  | .cl => (s.reg8 .cl).toNat

end Sys2Proof.Machine
end

