-- ==== Sys2Proof/Machine/Flags.lean ====
section
/-! DEFINITION. The ALU and its flags (spec 42_alu_flags). Values are unsigned integers below `M(w)`. -/

namespace Sys2Proof.Machine

/-- `v[msb(w)]` (00_scope R10). -/
def signBit (w : Width) (v : Nat) : Bool := v.testBit (msb w)

/-- `Parity(r)`: the folding XOR of the low byte (42_alu_flags R200). -/
def parity (r : Nat) : Bool :=
  let p := r % 256
  let p := p ^^^ (p / 16)
  let p := p ^^^ (p / 4)
  let p := p ^^^ (p / 2)
  !p.testBit 0

/-- What an ALU function returns (42_alu_flags R202). -/
structure AluResult where
  r  : Nat
  CF : Bool
  PF : Bool
  AF : Bool
  ZF : Bool
  SF : Bool
  OF : Bool
deriving DecidableEq, Repr

/-- A result with `SZP(r, w)` (42_alu_flags R201) and the given CF, AF, OF. -/
def AluResult.of (w : Width) (r : Nat) (cf af ov : Bool) : AluResult :=
  AluResult.mk r cf (parity r) af (r == 0) (signBit w r) ov

/-- `Add(a, b, cin, w)` (42_alu_flags R202). -/
def aluAdd (w : Width) (a b : Nat) (cin : Bool) : AluResult :=
  let full := a + b + cin.toNat
  let r := full % modulus w
  AluResult.of w r (decide (full ≥ modulus w)) (decide (a % 16 + b % 16 + cin.toNat ≥ 16))
    (signBit w a == signBit w b && signBit w r != signBit w a)

/-- `Sub(a, b, bin, w)` (42_alu_flags R203). -/
def aluSub (w : Width) (a b : Nat) (bin : Bool) : AluResult :=
  let full : Int := (a : Int) - (b : Int) - (bin.toNat : Int)
  let r := reduce w full
  AluResult.of w r (decide (full < 0)) (decide (((a % 16 : Nat) : Int) - ((b % 16 : Nat) : Int) - (bin.toNat : Int) < 0))
    (signBit w a != signBit w b && signBit w r != signBit w a)

/-- `Inc(a, w)` (42_alu_flags R206); the user discards CF. -/
def aluInc (w : Width) (a : Nat) : AluResult := aluAdd w a 1 false

/-- `Dec(a, w)` (42_alu_flags R206); the user discards CF. -/
def aluDec (w : Width) (a : Nat) : AluResult := aluSub w a 1 false

/-- `Neg(a, w)` (42_alu_flags R207). -/
def aluNeg (w : Width) (a : Nat) : AluResult := aluSub w 0 a false

/-- The flag entries of a list of defined flags, in the order of 10_state R41, and of the flags the 8086 leaves
undefined: those are kept, or drawn freely when `UNDEF_FLAGS = draw` (42_alu_flags R208; log 5). -/
def flagWrites (s : State) (defined : List (Flag × Bool)) (undefd : List Flag) : List Write :=
  match s.cfg.undefFlags with
  | .unchanged => defined.map fun e => .flag e.1 e.2
  | .draw =>
    (Flag.all.filterMap fun f =>
      match defined.lookup f with
      | some b => some (.flag f b)
      | none => if f ∈ undefd then some (.flag f (Config.freeFlag s.draws f)) else none) ++
    (if undefd = [] then [] else [.draw])

/-- All six arithmetic flags, in order (44_arithmetic R280). -/
def AluResult.flagsAll (x : AluResult) : List Write :=
  [.flag .CF x.CF, .flag .PF x.PF, .flag .AF x.AF, .flag .ZF x.ZF, .flag .SF x.SF, .flag .OF x.OF]

/-- The five flags of INC and DEC (42_alu_flags R206). -/
def AluResult.flagsNoCarry (x : AluResult) : List Write :=
  [.flag .PF x.PF, .flag .AF x.AF, .flag .ZF x.ZF, .flag .SF x.SF, .flag .OF x.OF]

/-- `SZP(r, w)` as entries to be written, in order (42_alu_flags R201). -/
def szp (w : Width) (r : Nat) : List (Flag × Bool) :=
  [(.PF, parity r), (.ZF, r == 0), (.SF, signBit w r)]

/-- `Logic(r, w)`: CF and OF cleared, SF ZF PF from the result; AF is undefined (42_alu_flags R205, R208). -/
def logicFlags (s : State) (w : Width) (r : Nat) : List Write :=
  flagWrites s ([(.CF, false)] ++ szp w r ++ [(.OF, false)]) [.AF]

/-! ### Shifts and rotates -/

/-- The seven shift and rotate operations (42_alu_flags R209). -/
inductive ShiftOp where
  | shl | shr | sar | rol | ror | rcl | rcr
deriving DecidableEq, Repr

/-- The one-bit step `(r, cf)` to `(r', cf')` (42_alu_flags R209). -/
def shiftStep (op : ShiftOp) (w : Width) (x : Nat × Bool) : Nat × Bool :=
  let (r, cf) := x
  let top := 2 ^ msb w
  let hi := r.testBit (msb w)
  let lo := r.testBit 0
  match op with
  | .shl => ((2 * r) % modulus w, hi)
  | .shr => (r / 2, lo)
  | .sar => (r / 2 + hi.toNat * top, lo)
  | .rol => ((2 * r) % modulus w + hi.toNat, hi)
  | .ror => (r / 2 + lo.toNat * top, lo)
  | .rcl => ((2 * r) % modulus w + cf.toNat, hi)
  | .rcr => (r / 2 + cf.toNat * top, lo)

/-- `ShiftRot(op, a, c, w, CFin)`: the one-bit step `c` times (42_alu_flags R210). -/
def shiftRot (op : ShiftOp) (w : Width) : Nat → Nat × Bool → Nat × Bool
  | 0, x => x
  | c + 1, x => shiftRot op w c (shiftStep op w x)

/-- A shift writes SF ZF PF too; a rotate does not (42_alu_flags R211, R212). -/
def ShiftOp.isShift : ShiftOp → Bool
  | .shl => true
  | .shr => true
  | .sar => true
  | .rol => false
  | .ror => false
  | .rcl => false
  | .rcr => false

/-- OF of a shift or rotate by 1, from the operand `a`, the result `r` and the carry out (42_alu_flags R211, R212). -/
def shiftOverflow (op : ShiftOp) (w : Width) (a r : Nat) (cf : Bool) : Bool :=
  match op with
  | .shl => xor (signBit w r) cf
  | .shr => signBit w a
  | .sar => false
  | .rol => xor (signBit w r) cf
  | .rcl => xor (signBit w r) cf
  | .ror => xor (signBit w r) (r.testBit (msb w - 1))
  | .rcr => xor (signBit w r) (r.testBit (msb w - 1))

/-- The flag entries of a shift or rotate by `c >= 1` (42_alu_flags R211, R212); OF at `c > 1` and AF after a shift
are undefined (R208). -/
def shiftFlags (s : State) (op : ShiftOp) (w : Width) (c a r : Nat) (cf : Bool) : List Write :=
  flagWrites s
    ([(.CF, cf)] ++ (if op.isShift then szp w r else []) ++
      (if c = 1 then [(.OF, shiftOverflow op w a r cf)] else []))
    ((if op.isShift then [.AF] else []) ++ (if c = 1 then [] else [.OF]))

end Sys2Proof.Machine
end

