-- ==== Sys2Proof/Machine/Arithmetic.lean ====
section
/-! DEFINITION. The arithmetic instructions (spec 44_arithmetic). -/

namespace Sys2Proof.Machine

/-- The template of a two-operand arithmetic kind (44_arithmetic R280): operands read, `f` applied, the result
written to `op1`, all six flags written. -/
def arithDiff (i : Instr) (s : State) (w : Width) (op1 : Operand) (src : Except Fault Nat)
    (f : Nat → Nat → AluResult) : Except Fault (List Write) := do
  let a ← readOp s w op1
  let b ← src
  let ws ← writeOp s w op1 (f a b).r
  return [.ip (nextIp i s)] ++ ws ++ (f a b).flagsAll

/-- CMP: the result is discarded (44_arithmetic R280, R300). -/
def compareDiff (i : Instr) (s : State) (w : Width) (op1 : Operand) (src : Except Fault Nat) :
    Except Fault (List Write) := do
  let a ← readOp s w op1
  let b ← src
  return [.ip (nextIp i s)] ++ (aluSub w a b false).flagsAll

/-- INC and DEC: CF is not written (44_arithmetic R287, R297). -/
def stepByOneDiff (i : Instr) (s : State) (w : Width) (op : Operand) (f : Nat → AluResult) :
    Except Fault (List Write) := do
  let a ← readOp s w op
  let ws ← writeOp s w op (f a).r
  return [.ip (nextIp i s)] ++ ws ++ (f a).flagsNoCarry

/-- AAA and AAS (44_arithmetic R289, R303): `delta` is added to `al` and `deltaHi` to `ah`, 6 and 1 or their
negatives; PF ZF SF OF are undefined (42_alu_flags R208). -/
def asciiAdjustDiff (i : Instr) (s : State) (delta deltaHi : Int) : Except Fault (List Write) :=
  let al := (s.reg8 .al).toNat
  let adjust : Bool := decide (al % 16 > 9) || s.flag .AF
  let al' : Nat := if adjust then (((al : Int) + delta) % 16).toNat else al % 16
  let ah' : Nat := if adjust then reduce .byte ((s.reg8 .ah).toNat + deltaHi) else (s.reg8 .ah).toNat
  .ok ([.ip (nextIp i s), .reg .ax (BitVec.ofNat 16 (ah' * 256 + al'))] ++
    flagWrites s [(.CF, adjust), (.AF, adjust)] [.PF, .ZF, .SF, .OF])

/-- DAA and DAS (44_arithmetic R290, R304): `sign` is 1 or -1; both tests look at the original `al`; OF is
undefined (42_alu_flags R208). -/
def decimalAdjustDiff (i : Instr) (s : State) (sign : Int) : Except Fault (List Write) :=
  let old := (s.reg8 .al).toNat
  let low : Bool := decide (old % 16 > 9) || s.flag .AF
  let high : Bool := decide (old > 0x99) || s.flag .CF
  let v1 : Nat := if low then reduce .byte (old + sign * 6) else old
  let v : Nat := if high then reduce .byte (v1 + sign * 0x60) else v1
  .ok ([.ip (nextIp i s), .reg8 .al (BitVec.ofNat 8 v)] ++
    flagWrites s [(.CF, high), (.PF, parity v), (.AF, low), (.ZF, v == 0), (.SF, signBit .byte v)] [.OF])

/-- The product of MUL and IMUL written to `ax`, or `dx:ax` (44_arithmetic R305, R306), with `CF = OF = wide`;
SF ZF PF AF are undefined (42_alu_flags R208). -/
def productDiff (i : Instr) (s : State) (w : Width) (p : Int) (wide : Bool) : List Write :=
  [.ip (nextIp i s), .reg .ax (BitVec.ofInt 16 p)] ++
    (match w with
     | .byte => []
     | .word => [.reg .dx (BitVec.ofInt 16 (p / 65536))]) ++
    flagWrites s [(.CF, wide), (.OF, wide)] [.PF, .AF, .ZF, .SF]

/-- The quotient and remainder of DIV and IDIV: `al` and `ah`, or `ax` and `dx` (44_arithmetic R308, R309); all six
flags are undefined (42_alu_flags R208). -/
def quotientDiff (i : Instr) (s : State) (w : Width) (q r : Int) : List Write :=
  [.ip (nextIp i s)] ++
    (match w with
     | .byte => [.reg .ax (BitVec.ofNat 16 (reduce .byte r * 256 + reduce .byte q))]
     | .word => [.reg .ax (BitVec.ofInt 16 q), .reg .dx (BitVec.ofInt 16 r)]) ++
    flagWrites s [] [.CF, .PF, .AF, .ZF, .SF, .OF]

/-- The dividend of DIV: `ax`, or `dx:ax` (44_arithmetic R308). -/
def dividend (s : State) : Width → Nat
  | .byte => (s.reg .ax).toNat
  | .word => (s.reg .dx).toNat * 65536 + (s.reg .ax).toNat

/-- The signed dividend of IDIV (44_arithmetic R309). -/
def signedDividend (s : State) : Width → Int
  | .byte => conv .word (dividend s .byte)
  | .word => if (s.reg .dx).getLsbD 15 then (dividend s .word : Int) - 4294967296 else dividend s .word

/-- The smallest quotient IDIV accepts: `IDIV_MIN8`, `IDIV_MIN16` (44_arithmetic R309). -/
def idivMin (s : State) : Width → Int
  | .byte => s.cfg.idivMin8
  | .word => s.cfg.idivMin16

/-- 44_arithmetic R281. -/
def diffAddRmReg (lock : Bool) (op1 : Operand) (op2 : Operand) (s : State) : Except Fault (List Write) :=
  arithDiff (.addRmReg lock op1 op2) s (pairWidth op1 op2) op1 (readOp s (pairWidth op1 op2) op2)
    fun a b => aluAdd (pairWidth op1 op2) a b false

/-- The step of `addRmReg`, inside `SIMULATED` or not (43_data_transfer R240). -/
def execAddRmReg (lock : Bool) (op1 : Operand) (op2 : Operand) (s : State) : Host.Outcome State Fault Refusal :=
  complete .addRmReg s (diffAddRmReg lock op1 op2 s)

/-- 44_arithmetic R282. -/
def diffAddRmImm (lock : Bool) (op1 : Operand) (imm : Imm) (s : State) : Except Fault (List Write) :=
  arithDiff (.addRmImm lock op1 imm) s op1.width op1 (.ok (immVal op1.width imm))
    fun a b => aluAdd op1.width a b false

/-- The step of `addRmImm`, inside `SIMULATED` or not (43_data_transfer R240). -/
def execAddRmImm (lock : Bool) (op1 : Operand) (imm : Imm) (s : State) : Host.Outcome State Fault Refusal :=
  complete .addRmImm s (diffAddRmImm lock op1 imm s)

/-- 44_arithmetic R283. -/
def diffAddAccImm (imm : Imm) (s : State) : Except Fault (List Write) :=
  arithDiff (.addAccImm imm) s imm.width (acc imm.width) (.ok (immVal imm.width imm))
    fun a b => aluAdd imm.width a b false

/-- The step of `addAccImm`, inside `SIMULATED` or not (43_data_transfer R240). -/
def execAddAccImm (imm : Imm) (s : State) : Host.Outcome State Fault Refusal :=
  complete .addAccImm s (diffAddAccImm imm s)

/-- 44_arithmetic R284. -/
def diffAdcRmReg (lock : Bool) (op1 : Operand) (op2 : Operand) (s : State) : Except Fault (List Write) :=
  arithDiff (.adcRmReg lock op1 op2) s (pairWidth op1 op2) op1 (readOp s (pairWidth op1 op2) op2)
    fun a b => aluAdd (pairWidth op1 op2) a b (s.flag .CF)

/-- The step of `adcRmReg`, inside `SIMULATED` or not (43_data_transfer R240). -/
def execAdcRmReg (lock : Bool) (op1 : Operand) (op2 : Operand) (s : State) : Host.Outcome State Fault Refusal :=
  complete .adcRmReg s (diffAdcRmReg lock op1 op2 s)

/-- 44_arithmetic R285. -/
def diffAdcRmImm (lock : Bool) (op1 : Operand) (imm : Imm) (s : State) : Except Fault (List Write) :=
  arithDiff (.adcRmImm lock op1 imm) s op1.width op1 (.ok (immVal op1.width imm))
    fun a b => aluAdd op1.width a b (s.flag .CF)

/-- The step of `adcRmImm`, inside `SIMULATED` or not (43_data_transfer R240). -/
def execAdcRmImm (lock : Bool) (op1 : Operand) (imm : Imm) (s : State) : Host.Outcome State Fault Refusal :=
  complete .adcRmImm s (diffAdcRmImm lock op1 imm s)

/-- 44_arithmetic R286. -/
def diffAdcAccImm (imm : Imm) (s : State) : Except Fault (List Write) :=
  arithDiff (.adcAccImm imm) s imm.width (acc imm.width) (.ok (immVal imm.width imm))
    fun a b => aluAdd imm.width a b (s.flag .CF)

/-- The step of `adcAccImm`, inside `SIMULATED` or not (43_data_transfer R240). -/
def execAdcAccImm (imm : Imm) (s : State) : Host.Outcome State Fault Refusal :=
  complete .adcAccImm s (diffAdcAccImm imm s)

/-- 44_arithmetic R287. -/
def diffIncRm (lock : Bool) (op : Operand) (s : State) : Except Fault (List Write) :=
  stepByOneDiff (.incRm lock op) s op.width op (aluInc op.width)

/-- The step of `incRm`, inside `SIMULATED` or not (43_data_transfer R240). -/
def execIncRm (lock : Bool) (op : Operand) (s : State) : Host.Outcome State Fault Refusal :=
  complete .incRm s (diffIncRm lock op s)

/-- 44_arithmetic R288. -/
def diffIncReg (r : Reg16) (s : State) : Except Fault (List Write) :=
  stepByOneDiff (.incReg r) s .word (.reg16 r) (aluInc .word)

/-- The step of `incReg`, inside `SIMULATED` or not (43_data_transfer R240). -/
def execIncReg (r : Reg16) (s : State) : Host.Outcome State Fault Refusal :=
  complete .incReg s (diffIncReg r s)

/-- 44_arithmetic R289. -/
def diffAaa (s : State) : Except Fault (List Write) :=
  asciiAdjustDiff .aaa s 6 1

/-- The step of `aaa`, inside `SIMULATED` or not (43_data_transfer R240). -/
def execAaa (s : State) : Host.Outcome State Fault Refusal :=
  complete .aaa s (diffAaa s)

/-- 44_arithmetic R290. -/
def diffDaa (s : State) : Except Fault (List Write) :=
  decimalAdjustDiff .daa s 1

/-- The step of `daa`, inside `SIMULATED` or not (43_data_transfer R240). -/
def execDaa (s : State) : Host.Outcome State Fault Refusal :=
  complete .daa s (diffDaa s)

/-- 44_arithmetic R291. -/
def diffSubRmReg (lock : Bool) (op1 : Operand) (op2 : Operand) (s : State) : Except Fault (List Write) :=
  arithDiff (.subRmReg lock op1 op2) s (pairWidth op1 op2) op1 (readOp s (pairWidth op1 op2) op2)
    fun a b => aluSub (pairWidth op1 op2) a b false

/-- The step of `subRmReg`, inside `SIMULATED` or not (43_data_transfer R240). -/
def execSubRmReg (lock : Bool) (op1 : Operand) (op2 : Operand) (s : State) : Host.Outcome State Fault Refusal :=
  complete .subRmReg s (diffSubRmReg lock op1 op2 s)

/-- 44_arithmetic R292. -/
def diffSubRmImm (lock : Bool) (op1 : Operand) (imm : Imm) (s : State) : Except Fault (List Write) :=
  arithDiff (.subRmImm lock op1 imm) s op1.width op1 (.ok (immVal op1.width imm))
    fun a b => aluSub op1.width a b false

/-- The step of `subRmImm`, inside `SIMULATED` or not (43_data_transfer R240). -/
def execSubRmImm (lock : Bool) (op1 : Operand) (imm : Imm) (s : State) : Host.Outcome State Fault Refusal :=
  complete .subRmImm s (diffSubRmImm lock op1 imm s)

/-- 44_arithmetic R293. -/
def diffSubAccImm (imm : Imm) (s : State) : Except Fault (List Write) :=
  arithDiff (.subAccImm imm) s imm.width (acc imm.width) (.ok (immVal imm.width imm))
    fun a b => aluSub imm.width a b false

/-- The step of `subAccImm`, inside `SIMULATED` or not (43_data_transfer R240). -/
def execSubAccImm (imm : Imm) (s : State) : Host.Outcome State Fault Refusal :=
  complete .subAccImm s (diffSubAccImm imm s)

/-- 44_arithmetic R294. -/
def diffSbbRmReg (lock : Bool) (op1 : Operand) (op2 : Operand) (s : State) : Except Fault (List Write) :=
  arithDiff (.sbbRmReg lock op1 op2) s (pairWidth op1 op2) op1 (readOp s (pairWidth op1 op2) op2)
    fun a b => aluSub (pairWidth op1 op2) a b (s.flag .CF)

/-- The step of `sbbRmReg`, inside `SIMULATED` or not (43_data_transfer R240). -/
def execSbbRmReg (lock : Bool) (op1 : Operand) (op2 : Operand) (s : State) : Host.Outcome State Fault Refusal :=
  complete .sbbRmReg s (diffSbbRmReg lock op1 op2 s)

/-- 44_arithmetic R295. -/
def diffSbbRmImm (lock : Bool) (op1 : Operand) (imm : Imm) (s : State) : Except Fault (List Write) :=
  arithDiff (.sbbRmImm lock op1 imm) s op1.width op1 (.ok (immVal op1.width imm))
    fun a b => aluSub op1.width a b (s.flag .CF)

/-- The step of `sbbRmImm`, inside `SIMULATED` or not (43_data_transfer R240). -/
def execSbbRmImm (lock : Bool) (op1 : Operand) (imm : Imm) (s : State) : Host.Outcome State Fault Refusal :=
  complete .sbbRmImm s (diffSbbRmImm lock op1 imm s)

/-- 44_arithmetic R296. -/
def diffSbbAccImm (imm : Imm) (s : State) : Except Fault (List Write) :=
  arithDiff (.sbbAccImm imm) s imm.width (acc imm.width) (.ok (immVal imm.width imm))
    fun a b => aluSub imm.width a b (s.flag .CF)

/-- The step of `sbbAccImm`, inside `SIMULATED` or not (43_data_transfer R240). -/
def execSbbAccImm (imm : Imm) (s : State) : Host.Outcome State Fault Refusal :=
  complete .sbbAccImm s (diffSbbAccImm imm s)

/-- 44_arithmetic R297. -/
def diffDecRm (lock : Bool) (op : Operand) (s : State) : Except Fault (List Write) :=
  stepByOneDiff (.decRm lock op) s op.width op (aluDec op.width)

/-- The step of `decRm`, inside `SIMULATED` or not (43_data_transfer R240). -/
def execDecRm (lock : Bool) (op : Operand) (s : State) : Host.Outcome State Fault Refusal :=
  complete .decRm s (diffDecRm lock op s)

/-- 44_arithmetic R298. -/
def diffDecReg (r : Reg16) (s : State) : Except Fault (List Write) :=
  stepByOneDiff (.decReg r) s .word (.reg16 r) (aluDec .word)

/-- The step of `decReg`, inside `SIMULATED` or not (43_data_transfer R240). -/
def execDecReg (r : Reg16) (s : State) : Host.Outcome State Fault Refusal :=
  complete .decReg s (diffDecReg r s)

/-- 44_arithmetic R299. -/
def diffNeg (lock : Bool) (op : Operand) (s : State) : Except Fault (List Write) :=
  do
  let a ← readOp s op.width op
  let ws ← writeOp s op.width op (aluNeg op.width a).r
  return [.ip (nextIp (.neg lock op) s)] ++ ws ++ (aluNeg op.width a).flagsAll

/-- The step of `neg`, inside `SIMULATED` or not (43_data_transfer R240). -/
def execNeg (lock : Bool) (op : Operand) (s : State) : Host.Outcome State Fault Refusal :=
  complete .neg s (diffNeg lock op s)

/-- 44_arithmetic R300. -/
def diffCmpRmReg (op1 : Operand) (op2 : Operand) (s : State) : Except Fault (List Write) :=
  compareDiff (.cmpRmReg op1 op2) s (pairWidth op1 op2) op1 (readOp s (pairWidth op1 op2) op2)

/-- The step of `cmpRmReg`, inside `SIMULATED` or not (43_data_transfer R240). -/
def execCmpRmReg (op1 : Operand) (op2 : Operand) (s : State) : Host.Outcome State Fault Refusal :=
  complete .cmpRmReg s (diffCmpRmReg op1 op2 s)

/-- 44_arithmetic R301. -/
def diffCmpRmImm (op1 : Operand) (imm : Imm) (s : State) : Except Fault (List Write) :=
  compareDiff (.cmpRmImm op1 imm) s op1.width op1 (.ok (immVal op1.width imm))

/-- The step of `cmpRmImm`, inside `SIMULATED` or not (43_data_transfer R240). -/
def execCmpRmImm (op1 : Operand) (imm : Imm) (s : State) : Host.Outcome State Fault Refusal :=
  complete .cmpRmImm s (diffCmpRmImm op1 imm s)

/-- 44_arithmetic R302. -/
def diffCmpAccImm (imm : Imm) (s : State) : Except Fault (List Write) :=
  compareDiff (.cmpAccImm imm) s imm.width (acc imm.width) (.ok (immVal imm.width imm))

/-- The step of `cmpAccImm`, inside `SIMULATED` or not (43_data_transfer R240). -/
def execCmpAccImm (imm : Imm) (s : State) : Host.Outcome State Fault Refusal :=
  complete .cmpAccImm s (diffCmpAccImm imm s)

/-- 44_arithmetic R303. -/
def diffAas (s : State) : Except Fault (List Write) :=
  asciiAdjustDiff .aas s (-6) (-1)

/-- The step of `aas`, inside `SIMULATED` or not (43_data_transfer R240). -/
def execAas (s : State) : Host.Outcome State Fault Refusal :=
  complete .aas s (diffAas s)

/-- 44_arithmetic R304. -/
def diffDas (s : State) : Except Fault (List Write) :=
  decimalAdjustDiff .das s (-1)

/-- The step of `das`, inside `SIMULATED` or not (43_data_transfer R240). -/
def execDas (s : State) : Host.Outcome State Fault Refusal :=
  complete .das s (diffDas s)

/-- 44_arithmetic R305. -/
def diffMul (op : Operand) (s : State) : Except Fault (List Write) :=
  do
  let b ← readOp s op.width op
  let a ← readOp s op.width (acc op.width)
  return productDiff (.mul op) s op.width ((a * b : Nat) : Int) (a * b / modulus op.width != 0)

/-- The step of `mul`, inside `SIMULATED` or not (43_data_transfer R240). -/
def execMul (op : Operand) (s : State) : Host.Outcome State Fault Refusal :=
  complete .mul s (diffMul op s)

/-- 44_arithmetic R306. -/
def diffImul (op : Operand) (s : State) : Except Fault (List Write) :=
  do
  let b ← readOp s op.width op
  let a ← readOp s op.width (acc op.width)
  let p := conv op.width a * conv op.width b
  let half : Int := (modulus op.width / 2 : Nat)
  return productDiff (.imul op) s op.width p (decide (p < -half) || decide (p > half - 1))

/-- The step of `imul`, inside `SIMULATED` or not (43_data_transfer R240). -/
def execImul (op : Operand) (s : State) : Host.Outcome State Fault Refusal :=
  complete .imul s (diffImul op s)

/-- 44_arithmetic R307. -/
def diffAam (s : State) : Except Fault (List Write) :=
  let al := (s.reg8 .al).toNat
  .ok ([.ip (nextIp .aam s), .reg .ax (BitVec.ofNat 16 (al / 10 * 256 + al % 10))] ++
    flagWrites s (szp .byte (al % 10)) [.CF, .AF, .OF])

/-- The step of `aam`, inside `SIMULATED` or not (43_data_transfer R240). -/
def execAam (s : State) : Host.Outcome State Fault Refusal :=
  complete .aam s (diffAam s)

/-- 44_arithmetic R308. -/
def diffDiv (op : Operand) (s : State) : Except Fault (List Write) :=
  do
  let d ← readOp s op.width op
  let n := dividend s op.width
  if d = 0 ∨ n / d > modulus op.width - 1 then .error .divideError
  else return quotientDiff (.div op) s op.width (n / d : Nat) (n % d : Nat)

/-- The step of `div`, inside `SIMULATED` or not (43_data_transfer R240). -/
def execDiv (op : Operand) (s : State) : Host.Outcome State Fault Refusal :=
  complete .div s (diffDiv op s)

/-- 44_arithmetic R309: truncating division, the remainder with the sign of the dividend. -/
def diffIdiv (op : Operand) (s : State) : Except Fault (List Write) :=
  do
  let v ← readOp s op.width op
  let d := conv op.width v
  let n := signedDividend s op.width
  let q := Int.tdiv n d
  if d = 0 ∨ q > ((modulus op.width / 2 : Nat) : Int) - 1 ∨ q < idivMin s op.width then .error .divideError
  else return quotientDiff (.idiv op) s op.width q (Int.tmod n d)

/-- The step of `idiv`, inside `SIMULATED` or not (43_data_transfer R240). -/
def execIdiv (op : Operand) (s : State) : Host.Outcome State Fault Refusal :=
  complete .idiv s (diffIdiv op s)

/-- 44_arithmetic R310. -/
def diffAad (s : State) : Except Fault (List Write) :=
  let v := ((s.reg8 .ah).toNat * 10 + (s.reg8 .al).toNat) % 256
  .ok ([.ip (nextIp .aad s), .reg .ax (BitVec.ofNat 16 v)] ++ flagWrites s (szp .byte v) [.CF, .AF, .OF])

/-- The step of `aad`, inside `SIMULATED` or not (43_data_transfer R240). -/
def execAad (s : State) : Host.Outcome State Fault Refusal :=
  complete .aad s (diffAad s)

/-- 44_arithmetic R311. -/
def diffCbw (s : State) : Except Fault (List Write) :=
  .ok [.ip (nextIp .cbw s), .reg .ax ((s.reg8 .al).signExtend 16)]

/-- The step of `cbw`, inside `SIMULATED` or not (43_data_transfer R240). -/
def execCbw (s : State) : Host.Outcome State Fault Refusal :=
  complete .cbw s (diffCbw s)

/-- 44_arithmetic R312. -/
def diffCwd (s : State) : Except Fault (List Write) :=
  .ok [.ip (nextIp .cwd s), .reg .dx (if (s.reg .ax).getLsbD 15 then 0xFFFF else 0)]

/-- The step of `cwd`, inside `SIMULATED` or not (43_data_transfer R240). -/
def execCwd (s : State) : Host.Outcome State Fault Refusal :=
  complete .cwd s (diffCwd s)

end Sys2Proof.Machine
end

