-- ==== Sys2Proof/Machine/ControlTransfer.lean ====
section
/-! DEFINITION. The control transfer instructions (spec 47_control_transfer). -/

namespace Sys2Proof.Machine

/-- A near call to `t`: the return offset is pushed (47_control_transfer R366). -/
def callDiff (i : Instr) (s : State) (t : Word) : Except Fault (List Write) := do
  let m ← push16 s (nextIp i s) 1
  return [.ip t] ++ m ++ [spAfterPush s 1]

/-- A far call: `cs` is pushed, then the return offset (47_control_transfer R368). -/
def callFarDiff (i : Instr) (s : State) (sg off : Word) : Except Fault (List Write) := do
  let m1 ← push16 s (s.seg .cs) 1
  let m2 ← push16 s (nextIp i s) 2
  return [.ip off] ++ m1 ++ m2 ++ [spAfterPush s 2, .seg .cs sg]

/-- A near return, with the count it adds to `sp` (47_control_transfer R375, R376). -/
def returnDiff (s : State) (extra : Word) : Except Fault (List Write) := do
  let off ← pop16 s 1
  return [.ip off, spAfterPop s 1 extra]

/-- A far return, with the count it adds to `sp` (47_control_transfer R377, R378). -/
def returnFarDiff (s : State) (extra : Word) : Except Fault (List Write) := do
  let off ← pop16 s 1
  let sg ← pop16 s 2
  return [.ip off, .seg .cs sg, spAfterPop s 2 extra]

/-- A conditional transfer: one `ip` entry, target or fall-through (47_control_transfer R365, R379). -/
def jumpIf (i : Instr) (s : State) (disp : Byte) (cond : Bool) : Write :=
  .ip (if cond then target i disp.toInt s else nextIp i s)

/-- A short conditional jump: the diff has exactly one entry (47_control_transfer R379). -/
def conditionalDiff (i : Instr) (s : State) (disp : Byte) (cond : Bool) : Except Fault (List Write) :=
  .ok [jumpIf i s disp cond]

/-- The LOOP family: `cx` is decremented whether or not the branch is taken; `extra` is the test beside `c != 0`
(47_control_transfer R396). -/
def loopDiff (i : Instr) (s : State) (disp : Byte) (extra : Bool) : Except Fault (List Write) :=
  let c := s.reg .cx - 1
  .ok [jumpIf i s disp (c != 0 && extra), .reg .cx c]

/-- 47_control_transfer R366. -/
def diffCallNear (disp : Word) (s : State) : Except Fault (List Write) :=
  callDiff (.callNear disp) s (target (.callNear disp) disp.toInt s)

/-- The step of `callNear`, inside `SIMULATED` or not (43_data_transfer R240). -/
def execCallNear (disp : Word) (s : State) : Host.Outcome State Fault Refusal :=
  complete .callNear s (diffCallNear disp s)

/-- 47_control_transfer R367: the operand is read before the push. -/
def diffCallNearInd (op : Operand) (s : State) : Except Fault (List Write) :=
  do
  let t ← readOp s .word op
  callDiff (.callNearInd op) s (BitVec.ofNat 16 t)

/-- The step of `callNearInd`, inside `SIMULATED` or not (43_data_transfer R240). -/
def execCallNearInd (op : Operand) (s : State) : Host.Outcome State Fault Refusal :=
  complete .callNearInd s (diffCallNearInd op s)

/-- 47_control_transfer R368. -/
def diffCallFar (sg : Word) (off : Word) (s : State) : Except Fault (List Write) :=
  callFarDiff (.callFar sg off) s sg off

/-- The step of `callFar`, inside `SIMULATED` or not (43_data_transfer R240). -/
def execCallFar (sg : Word) (off : Word) (s : State) : Host.Outcome State Fault Refusal :=
  complete .callFar s (diffCallFar sg off s)

/-- 47_control_transfer R369. -/
def diffCallFarInd (ea : Ea) (s : State) : Except Fault (List Write) :=
  do
  let p ← readFar s ea
  callFarDiff (.callFarInd ea) s p.2 p.1

/-- The step of `callFarInd`, inside `SIMULATED` or not (43_data_transfer R240). -/
def execCallFarInd (ea : Ea) (s : State) : Host.Outcome State Fault Refusal :=
  complete .callFarInd s (diffCallFarInd ea s)

/-- 47_control_transfer R370. -/
def diffJmpNear (disp : Word) (s : State) : Except Fault (List Write) :=
  .ok [.ip (target (.jmpNear disp) disp.toInt s)]

/-- The step of `jmpNear`, inside `SIMULATED` or not (43_data_transfer R240). -/
def execJmpNear (disp : Word) (s : State) : Host.Outcome State Fault Refusal :=
  complete .jmpNear s (diffJmpNear disp s)

/-- 47_control_transfer R371. -/
def diffJmpShort (disp : Byte) (s : State) : Except Fault (List Write) :=
  .ok [.ip (target (.jmpShort disp) disp.toInt s)]

/-- The step of `jmpShort`, inside `SIMULATED` or not (43_data_transfer R240). -/
def execJmpShort (disp : Byte) (s : State) : Host.Outcome State Fault Refusal :=
  complete .jmpShort s (diffJmpShort disp s)

/-- 47_control_transfer R372. -/
def diffJmpNearInd (op : Operand) (s : State) : Except Fault (List Write) :=
  do
  let t ← readOp s .word op
  return [.ip (BitVec.ofNat 16 t)]

/-- The step of `jmpNearInd`, inside `SIMULATED` or not (43_data_transfer R240). -/
def execJmpNearInd (op : Operand) (s : State) : Host.Outcome State Fault Refusal :=
  complete .jmpNearInd s (diffJmpNearInd op s)

/-- 47_control_transfer R373. -/
def diffJmpFar (sg : Word) (off : Word) (_s : State) : Except Fault (List Write) :=
  .ok [.ip off, .seg .cs sg]

/-- The step of `jmpFar`, inside `SIMULATED` or not (43_data_transfer R240). -/
def execJmpFar (sg : Word) (off : Word) (s : State) : Host.Outcome State Fault Refusal :=
  complete .jmpFar s (diffJmpFar sg off s)

/-- 47_control_transfer R374. -/
def diffJmpFarInd (ea : Ea) (s : State) : Except Fault (List Write) :=
  do
  let p ← readFar s ea
  return [.ip p.1, .seg .cs p.2]

/-- The step of `jmpFarInd`, inside `SIMULATED` or not (43_data_transfer R240). -/
def execJmpFarInd (ea : Ea) (s : State) : Host.Outcome State Fault Refusal :=
  complete .jmpFarInd s (diffJmpFarInd ea s)

/-- 47_control_transfer R375. -/
def diffRetNear (s : State) : Except Fault (List Write) :=
  returnDiff s 0

/-- The step of `retNear`, inside `SIMULATED` or not (43_data_transfer R240). -/
def execRetNear (s : State) : Host.Outcome State Fault Refusal :=
  complete .retNear s (diffRetNear s)

/-- 47_control_transfer R376. -/
def diffRetNearImm (n : Word) (s : State) : Except Fault (List Write) :=
  returnDiff s n

/-- The step of `retNearImm`, inside `SIMULATED` or not (43_data_transfer R240). -/
def execRetNearImm (n : Word) (s : State) : Host.Outcome State Fault Refusal :=
  complete .retNearImm s (diffRetNearImm n s)

/-- 47_control_transfer R377. -/
def diffRetFar (s : State) : Except Fault (List Write) :=
  returnFarDiff s 0

/-- The step of `retFar`, inside `SIMULATED` or not (43_data_transfer R240). -/
def execRetFar (s : State) : Host.Outcome State Fault Refusal :=
  complete .retFar s (diffRetFar s)

/-- 47_control_transfer R378. -/
def diffRetFarImm (n : Word) (s : State) : Except Fault (List Write) :=
  returnFarDiff s n

/-- The step of `retFarImm`, inside `SIMULATED` or not (43_data_transfer R240). -/
def execRetFarImm (n : Word) (s : State) : Host.Outcome State Fault Refusal :=
  complete .retFarImm s (diffRetFarImm n s)

/-- 47_control_transfer R380, R379. -/
def diffJe (disp : Byte) (s : State) : Except Fault (List Write) :=
  conditionalDiff (.je disp) s disp (s.flag .ZF)

/-- The step of `je`, inside `SIMULATED` or not (43_data_transfer R240). -/
def execJe (disp : Byte) (s : State) : Host.Outcome State Fault Refusal :=
  complete .je s (diffJe disp s)

/-- 47_control_transfer R381, R379. -/
def diffJl (disp : Byte) (s : State) : Except Fault (List Write) :=
  conditionalDiff (.jl disp) s disp (s.flag .SF != s.flag .OF)

/-- The step of `jl`, inside `SIMULATED` or not (43_data_transfer R240). -/
def execJl (disp : Byte) (s : State) : Host.Outcome State Fault Refusal :=
  complete .jl s (diffJl disp s)

/-- 47_control_transfer R382, R379. -/
def diffJle (disp : Byte) (s : State) : Except Fault (List Write) :=
  conditionalDiff (.jle disp) s disp (s.flag .ZF || s.flag .SF != s.flag .OF)

/-- The step of `jle`, inside `SIMULATED` or not (43_data_transfer R240). -/
def execJle (disp : Byte) (s : State) : Host.Outcome State Fault Refusal :=
  complete .jle s (diffJle disp s)

/-- 47_control_transfer R383, R379. -/
def diffJb (disp : Byte) (s : State) : Except Fault (List Write) :=
  conditionalDiff (.jb disp) s disp (s.flag .CF)

/-- The step of `jb`, inside `SIMULATED` or not (43_data_transfer R240). -/
def execJb (disp : Byte) (s : State) : Host.Outcome State Fault Refusal :=
  complete .jb s (diffJb disp s)

/-- 47_control_transfer R384, R379. -/
def diffJbe (disp : Byte) (s : State) : Except Fault (List Write) :=
  conditionalDiff (.jbe disp) s disp (s.flag .CF || s.flag .ZF)

/-- The step of `jbe`, inside `SIMULATED` or not (43_data_transfer R240). -/
def execJbe (disp : Byte) (s : State) : Host.Outcome State Fault Refusal :=
  complete .jbe s (diffJbe disp s)

/-- 47_control_transfer R385, R379. -/
def diffJp (disp : Byte) (s : State) : Except Fault (List Write) :=
  conditionalDiff (.jp disp) s disp (s.flag .PF)

/-- The step of `jp`, inside `SIMULATED` or not (43_data_transfer R240). -/
def execJp (disp : Byte) (s : State) : Host.Outcome State Fault Refusal :=
  complete .jp s (diffJp disp s)

/-- 47_control_transfer R386, R379. -/
def diffJo (disp : Byte) (s : State) : Except Fault (List Write) :=
  conditionalDiff (.jo disp) s disp (s.flag .OF)

/-- The step of `jo`, inside `SIMULATED` or not (43_data_transfer R240). -/
def execJo (disp : Byte) (s : State) : Host.Outcome State Fault Refusal :=
  complete .jo s (diffJo disp s)

/-- 47_control_transfer R387, R379. -/
def diffJs (disp : Byte) (s : State) : Except Fault (List Write) :=
  conditionalDiff (.js disp) s disp (s.flag .SF)

/-- The step of `js`, inside `SIMULATED` or not (43_data_transfer R240). -/
def execJs (disp : Byte) (s : State) : Host.Outcome State Fault Refusal :=
  complete .js s (diffJs disp s)

/-- 47_control_transfer R388, R379. -/
def diffJne (disp : Byte) (s : State) : Except Fault (List Write) :=
  conditionalDiff (.jne disp) s disp (!s.flag .ZF)

/-- The step of `jne`, inside `SIMULATED` or not (43_data_transfer R240). -/
def execJne (disp : Byte) (s : State) : Host.Outcome State Fault Refusal :=
  complete .jne s (diffJne disp s)

/-- 47_control_transfer R389, R379. -/
def diffJnl (disp : Byte) (s : State) : Except Fault (List Write) :=
  conditionalDiff (.jnl disp) s disp (s.flag .SF == s.flag .OF)

/-- The step of `jnl`, inside `SIMULATED` or not (43_data_transfer R240). -/
def execJnl (disp : Byte) (s : State) : Host.Outcome State Fault Refusal :=
  complete .jnl s (diffJnl disp s)

/-- 47_control_transfer R390, R379. -/
def diffJnle (disp : Byte) (s : State) : Except Fault (List Write) :=
  conditionalDiff (.jnle disp) s disp (!s.flag .ZF && s.flag .SF == s.flag .OF)

/-- The step of `jnle`, inside `SIMULATED` or not (43_data_transfer R240). -/
def execJnle (disp : Byte) (s : State) : Host.Outcome State Fault Refusal :=
  complete .jnle s (diffJnle disp s)

/-- 47_control_transfer R391, R379. -/
def diffJnb (disp : Byte) (s : State) : Except Fault (List Write) :=
  conditionalDiff (.jnb disp) s disp (!s.flag .CF)

/-- The step of `jnb`, inside `SIMULATED` or not (43_data_transfer R240). -/
def execJnb (disp : Byte) (s : State) : Host.Outcome State Fault Refusal :=
  complete .jnb s (diffJnb disp s)

/-- 47_control_transfer R392, R379. -/
def diffJnbe (disp : Byte) (s : State) : Except Fault (List Write) :=
  conditionalDiff (.jnbe disp) s disp (!s.flag .CF && !s.flag .ZF)

/-- The step of `jnbe`, inside `SIMULATED` or not (43_data_transfer R240). -/
def execJnbe (disp : Byte) (s : State) : Host.Outcome State Fault Refusal :=
  complete .jnbe s (diffJnbe disp s)

/-- 47_control_transfer R393, R379. -/
def diffJnp (disp : Byte) (s : State) : Except Fault (List Write) :=
  conditionalDiff (.jnp disp) s disp (!s.flag .PF)

/-- The step of `jnp`, inside `SIMULATED` or not (43_data_transfer R240). -/
def execJnp (disp : Byte) (s : State) : Host.Outcome State Fault Refusal :=
  complete .jnp s (diffJnp disp s)

/-- 47_control_transfer R394, R379. -/
def diffJno (disp : Byte) (s : State) : Except Fault (List Write) :=
  conditionalDiff (.jno disp) s disp (!s.flag .OF)

/-- The step of `jno`, inside `SIMULATED` or not (43_data_transfer R240). -/
def execJno (disp : Byte) (s : State) : Host.Outcome State Fault Refusal :=
  complete .jno s (diffJno disp s)

/-- 47_control_transfer R395, R379. -/
def diffJns (disp : Byte) (s : State) : Except Fault (List Write) :=
  conditionalDiff (.jns disp) s disp (!s.flag .SF)

/-- The step of `jns`, inside `SIMULATED` or not (43_data_transfer R240). -/
def execJns (disp : Byte) (s : State) : Host.Outcome State Fault Refusal :=
  complete .jns s (diffJns disp s)

/-- 47_control_transfer R396. -/
def diffLoop (disp : Byte) (s : State) : Except Fault (List Write) :=
  loopDiff (.loop disp) s disp true

/-- The step of `loop`, inside `SIMULATED` or not (43_data_transfer R240). -/
def execLoop (disp : Byte) (s : State) : Host.Outcome State Fault Refusal :=
  complete .loop s (diffLoop disp s)

/-- 47_control_transfer R397: ZF is the pre-step flag. -/
def diffLoopz (disp : Byte) (s : State) : Except Fault (List Write) :=
  loopDiff (.loopz disp) s disp (s.flag .ZF)

/-- The step of `loopz`, inside `SIMULATED` or not (43_data_transfer R240). -/
def execLoopz (disp : Byte) (s : State) : Host.Outcome State Fault Refusal :=
  complete .loopz s (diffLoopz disp s)

/-- 47_control_transfer R398. -/
def diffLoopnz (disp : Byte) (s : State) : Except Fault (List Write) :=
  loopDiff (.loopnz disp) s disp (!s.flag .ZF)

/-- The step of `loopnz`, inside `SIMULATED` or not (43_data_transfer R240). -/
def execLoopnz (disp : Byte) (s : State) : Host.Outcome State Fault Refusal :=
  complete .loopnz s (diffLoopnz disp s)

/-- 47_control_transfer R399: `cx` is not written. -/
def diffJcxz (disp : Byte) (s : State) : Except Fault (List Write) :=
  conditionalDiff (.jcxz disp) s disp (s.reg .cx == 0)

/-- The step of `jcxz`, inside `SIMULATED` or not (43_data_transfer R240). -/
def execJcxz (disp : Byte) (s : State) : Host.Outcome State Fault Refusal :=
  complete .jcxz s (diffJcxz disp s)

/-- 47_control_transfer R400. Not in the default `SIMULATED`; the 8086 meaning when it is in (log 9). -/
def diffInt (type : Byte) (s : State) : Except Fault (List Write) :=
  softInterrupt (.int type) type s

/-- The step of `int`, inside `SIMULATED` or not (43_data_transfer R240). -/
def execInt (type : Byte) (s : State) : Host.Outcome State Fault Refusal :=
  complete .int s (diffInt type s)

/-- 47_control_transfer R401: type 3 (log 9). -/
def diffInt3 (s : State) : Except Fault (List Write) :=
  softInterrupt .int3 3 s

/-- The step of `int3`, inside `SIMULATED` or not (43_data_transfer R240). -/
def execInt3 (s : State) : Host.Outcome State Fault Refusal :=
  complete .int3 s (diffInt3 s)

/-- 47_control_transfer R402: type 4 if OF = 1, else fall through (log 9). -/
def diffInto (s : State) : Except Fault (List Write) :=
  if s.flag .OF then softInterrupt .into 4 s else .ok [.ip (nextIp .into s)]

/-- The step of `into`, inside `SIMULATED` or not (43_data_transfer R240). -/
def execInto (s : State) : Host.Outcome State Fault Refusal :=
  complete .into s (diffInto s)

/-- 47_control_transfer R403 (log 9). -/
def diffIret (s : State) : Except Fault (List Write) :=
  interruptReturn s

/-- The step of `iret`, inside `SIMULATED` or not (43_data_transfer R240). -/
def execIret (s : State) : Host.Outcome State Fault Refusal :=
  complete .iret s (diffIret s)

end Sys2Proof.Machine
end

