-- ==== Sys2Proof/Machine/DataTransfer.lean ====
section
/-! DEFINITION. The data transfer instructions (spec 43_data_transfer). -/

namespace Sys2Proof.Machine

/-- A move: `ip <- NextIp(rec); WriteOp(dst, w, v)` with `v` read from the pre-step state (43_data_transfer R241). -/
def moveDiff (i : Instr) (s : State) (w : Width) (dst : Operand) (src : Except Fault Nat) : Except Fault (List Write) := do
  let v ← src
  let ws ← writeOp s w dst v
  return [.ip (nextIp i s)] ++ ws

/-- One word pushed (43_data_transfer R249). -/
def pushDiff (i : Instr) (s : State) (v : Word) : Except Fault (List Write) := do
  let m ← push16 s v 1
  return [.ip (nextIp i s)] ++ m ++ [spAfterPush s 1]

/-- The word PUSH stores: `sp` is pushed already decremented (43_data_transfer R249). -/
def pushedValue (s : State) (op : Operand) : Except Fault Word := do
  let v ← readOp s .word op
  return if op = .reg16 .sp then s.reg .sp - 2 else BitVec.ofNat 16 v

/-- One word popped into an r/m operand; a pop into `sp` leaves the popped word (43_data_transfer R252). -/
def popDiff (i : Instr) (s : State) (op : Operand) : Except Fault (List Write) := do
  let v ← pop16 s 1
  if op = .reg16 .sp then return [.ip (nextIp i s), .reg .sp v]
  else
    let ws ← writeOp s .word op v.toNat
    return [.ip (nextIp i s)] ++ ws ++ [spAfterPop s 1 0]

/-- The two operands exchanged (43_data_transfer R255). -/
def exchangeDiff (i : Instr) (s : State) (w : Width) (op1 op2 : Operand) : Except Fault (List Write) := do
  let a ← readOp s w op1
  let b ← readOp s w op2
  let ws1 ← writeOp s w op1 b
  let ws2 ← writeOp s w op2 a
  return [.ip (nextIp i s)] ++ ws1 ++ ws2

/-- A far pointer loaded into a register and a segment register (43_data_transfer R264). -/
def loadFarDiff (i : Instr) (s : State) (r : Reg16) (sr : Sreg) (ea : Ea) : Except Fault (List Write) := do
  let p ← readFar s ea
  return [.ip (nextIp i s), .reg r p.1, .seg sr p.2]

/-- The block has no I/O port space, so the I/O kinds write nothing, not even `ip` (43_data_transfer R257, 20_memory
R60; log 10). -/
def noPortDiff : Except Fault (List Write) := .ok []

/-- 43_data_transfer R241. -/
def diffMovRmReg (dst : Operand) (src : Operand) (s : State) : Except Fault (List Write) :=
  moveDiff (.movRmReg dst src) s (pairWidth dst src) dst (readOp s (pairWidth dst src) src)

/-- The step of `movRmReg`, inside `SIMULATED` or not (43_data_transfer R240). -/
def execMovRmReg (dst : Operand) (src : Operand) (s : State) : Host.Outcome State Fault Refusal :=
  complete .movRmReg s (diffMovRmReg dst src s)

/-- 43_data_transfer R242. -/
def diffMovRmImm (dst : Operand) (imm : Imm) (s : State) : Except Fault (List Write) :=
  moveDiff (.movRmImm dst imm) s dst.width dst (.ok (immVal dst.width imm))

/-- The step of `movRmImm`, inside `SIMULATED` or not (43_data_transfer R240). -/
def execMovRmImm (dst : Operand) (imm : Imm) (s : State) : Host.Outcome State Fault Refusal :=
  complete .movRmImm s (diffMovRmImm dst imm s)

/-- 43_data_transfer R243. -/
def diffMovRegImm (dst : Operand) (imm : Imm) (s : State) : Except Fault (List Write) :=
  moveDiff (.movRegImm dst imm) s dst.width dst (.ok (immVal dst.width imm))

/-- The step of `movRegImm`, inside `SIMULATED` or not (43_data_transfer R240). -/
def execMovRegImm (dst : Operand) (imm : Imm) (s : State) : Host.Outcome State Fault Refusal :=
  complete .movRegImm s (diffMovRegImm dst imm s)

/-- 43_data_transfer R244. -/
def diffMovAccMem (w : Width) (ea : Ea) (s : State) : Except Fault (List Write) :=
  moveDiff (.movAccMem w ea) s w (acc w) (readOp s w (.mem ea))

/-- The step of `movAccMem`, inside `SIMULATED` or not (43_data_transfer R240). -/
def execMovAccMem (w : Width) (ea : Ea) (s : State) : Host.Outcome State Fault Refusal :=
  complete .movAccMem s (diffMovAccMem w ea s)

/-- 43_data_transfer R245. -/
def diffMovMemAcc (w : Width) (ea : Ea) (s : State) : Except Fault (List Write) :=
  moveDiff (.movMemAcc w ea) s w (.mem ea) (readOp s w (acc w))

/-- The step of `movMemAcc`, inside `SIMULATED` or not (43_data_transfer R240). -/
def execMovMemAcc (w : Width) (ea : Ea) (s : State) : Host.Outcome State Fault Refusal :=
  complete .movMemAcc s (diffMovMemAcc w ea s)

/-- 43_data_transfer R246. `cs` is a legal destination. -/
def diffMovSregRm (dst : Sreg) (src : Operand) (s : State) : Except Fault (List Write) :=
  do
  let v ← readOp s .word src
  return [.ip (nextIp (.movSregRm dst src) s), .seg dst (BitVec.ofNat 16 v)]

/-- The step of `movSregRm`, inside `SIMULATED` or not (43_data_transfer R240). -/
def execMovSregRm (dst : Sreg) (src : Operand) (s : State) : Host.Outcome State Fault Refusal :=
  complete .movSregRm s (diffMovSregRm dst src s)

/-- 43_data_transfer R248. -/
def diffMovRmSreg (dst : Operand) (src : Sreg) (s : State) : Except Fault (List Write) :=
  moveDiff (.movRmSreg dst src) s .word dst (.ok (s.seg src).toNat)

/-- The step of `movRmSreg`, inside `SIMULATED` or not (43_data_transfer R240). -/
def execMovRmSreg (dst : Operand) (src : Sreg) (s : State) : Host.Outcome State Fault Refusal :=
  complete .movRmSreg s (diffMovRmSreg dst src s)

/-- 43_data_transfer R249. -/
def diffPushRm (op : Operand) (s : State) : Except Fault (List Write) :=
  do
  let v ← pushedValue s op
  pushDiff (.pushRm op) s v

/-- The step of `pushRm`, inside `SIMULATED` or not (43_data_transfer R240). -/
def execPushRm (op : Operand) (s : State) : Host.Outcome State Fault Refusal :=
  complete .pushRm s (diffPushRm op s)

/-- 43_data_transfer R250. -/
def diffPushReg (r : Reg16) (s : State) : Except Fault (List Write) :=
  do
  let v ← pushedValue s (.reg16 r)
  pushDiff (.pushReg r) s v

/-- The step of `pushReg`, inside `SIMULATED` or not (43_data_transfer R240). -/
def execPushReg (r : Reg16) (s : State) : Host.Outcome State Fault Refusal :=
  complete .pushReg s (diffPushReg r s)

/-- 43_data_transfer R251. -/
def diffPushSreg (sr : Sreg) (s : State) : Except Fault (List Write) :=
  pushDiff (.pushSreg sr) s (s.seg sr)

/-- The step of `pushSreg`, inside `SIMULATED` or not (43_data_transfer R240). -/
def execPushSreg (sr : Sreg) (s : State) : Host.Outcome State Fault Refusal :=
  complete .pushSreg s (diffPushSreg sr s)

/-- 43_data_transfer R252. -/
def diffPopRm (op : Operand) (s : State) : Except Fault (List Write) :=
  popDiff (.popRm op) s op

/-- The step of `popRm`, inside `SIMULATED` or not (43_data_transfer R240). -/
def execPopRm (op : Operand) (s : State) : Host.Outcome State Fault Refusal :=
  complete .popRm s (diffPopRm op s)

/-- 43_data_transfer R253. -/
def diffPopReg (r : Reg16) (s : State) : Except Fault (List Write) :=
  popDiff (.popReg r) s (.reg16 r)

/-- The step of `popReg`, inside `SIMULATED` or not (43_data_transfer R240). -/
def execPopReg (r : Reg16) (s : State) : Host.Outcome State Fault Refusal :=
  complete .popReg s (diffPopReg r s)

/-- 43_data_transfer R254. The pop reads through the pre-step `ss`. -/
def diffPopSreg (sr : Sreg) (s : State) : Except Fault (List Write) :=
  do
  let v ← pop16 s 1
  return [.ip (nextIp (.popSreg sr) s), .seg sr v, spAfterPop s 1 0]

/-- The step of `popSreg`, inside `SIMULATED` or not (43_data_transfer R240). -/
def execPopSreg (sr : Sreg) (s : State) : Host.Outcome State Fault Refusal :=
  complete .popSreg s (diffPopSreg sr s)

/-- 43_data_transfer R255. -/
def diffXchgRmReg (lock : Bool) (op1 : Operand) (op2 : Operand) (s : State) : Except Fault (List Write) :=
  exchangeDiff (.xchgRmReg lock op1 op2) s (pairWidth op1 op2) op1 op2

/-- The step of `xchgRmReg`, inside `SIMULATED` or not (43_data_transfer R240). -/
def execXchgRmReg (lock : Bool) (op1 : Operand) (op2 : Operand) (s : State) : Host.Outcome State Fault Refusal :=
  complete .xchgRmReg s (diffXchgRmReg lock op1 op2 s)

/-- 43_data_transfer R256. -/
def diffXchgAccReg (r : Reg16) (s : State) : Except Fault (List Write) :=
  exchangeDiff (.xchgAccReg r) s .word (.reg16 .ax) (.reg16 r)

/-- The step of `xchgAccReg`, inside `SIMULATED` or not (43_data_transfer R240). -/
def execXchgAccReg (r : Reg16) (s : State) : Host.Outcome State Fault Refusal :=
  complete .xchgAccReg s (diffXchgAccReg r s)

/-- 43_data_transfer R258, R257. -/
def diffInFixed (_w : Width) (_port : Byte) (_s : State) : Except Fault (List Write) :=
  noPortDiff

/-- The step of `inFixed`, inside `SIMULATED` or not (43_data_transfer R240). -/
def execInFixed (_w : Width) (_port : Byte) (s : State) : Host.Outcome State Fault Refusal :=
  complete .inFixed s (diffInFixed _w _port s)

/-- 43_data_transfer R259, R257. -/
def diffInVar (_w : Width) (_s : State) : Except Fault (List Write) :=
  noPortDiff

/-- The step of `inVar`, inside `SIMULATED` or not (43_data_transfer R240). -/
def execInVar (_w : Width) (s : State) : Host.Outcome State Fault Refusal :=
  complete .inVar s (diffInVar _w s)

/-- 43_data_transfer R260, R257. -/
def diffOutFixed (_w : Width) (_port : Byte) (_s : State) : Except Fault (List Write) :=
  noPortDiff

/-- The step of `outFixed`, inside `SIMULATED` or not (43_data_transfer R240). -/
def execOutFixed (_w : Width) (_port : Byte) (s : State) : Host.Outcome State Fault Refusal :=
  complete .outFixed s (diffOutFixed _w _port s)

/-- 43_data_transfer R261, R257. -/
def diffOutVar (_w : Width) (_s : State) : Except Fault (List Write) :=
  noPortDiff

/-- The step of `outVar`, inside `SIMULATED` or not (43_data_transfer R240). -/
def execOutVar (_w : Width) (s : State) : Host.Outcome State Fault Refusal :=
  complete .outVar s (diffOutVar _w s)

/-- 43_data_transfer R262. The offset is `(bx + al) mod 65536` in `ds`. -/
def diffXlat (s : State) : Except Fault (List Write) :=
  do
  let v ← memRead s .byte (phys (s.seg .ds) (s.reg .bx + (s.reg8 .al).setWidth 16).toNat)
  return [.ip (nextIp .xlat s), .reg8 .al (BitVec.ofNat 8 v)]

/-- The step of `xlat`, inside `SIMULATED` or not (43_data_transfer R240). -/
def execXlat (s : State) : Host.Outcome State Fault Refusal :=
  complete .xlat s (diffXlat s)

/-- 43_data_transfer R263, 41_operands_addressing R190. No memory access; the segment is ignored. -/
def diffLea (r : Reg16) (ea : Ea) (s : State) : Except Fault (List Write) :=
  .ok [.ip (nextIp (.lea r ea) s), .reg r (BitVec.ofInt 16 (eaOffset s ea))]

/-- The step of `lea`, inside `SIMULATED` or not (43_data_transfer R240). -/
def execLea (r : Reg16) (ea : Ea) (s : State) : Host.Outcome State Fault Refusal :=
  complete .lea s (diffLea r ea s)

/-- 43_data_transfer R264. -/
def diffLds (r : Reg16) (ea : Ea) (s : State) : Except Fault (List Write) :=
  loadFarDiff (.lds r ea) s r .ds ea

/-- The step of `lds`, inside `SIMULATED` or not (43_data_transfer R240). -/
def execLds (r : Reg16) (ea : Ea) (s : State) : Host.Outcome State Fault Refusal :=
  complete .lds s (diffLds r ea s)

/-- 43_data_transfer R265. -/
def diffLes (r : Reg16) (ea : Ea) (s : State) : Except Fault (List Write) :=
  loadFarDiff (.les r ea) s r .es ea

/-- The step of `les`, inside `SIMULATED` or not (43_data_transfer R240). -/
def execLes (r : Reg16) (ea : Ea) (s : State) : Host.Outcome State Fault Refusal :=
  complete .les s (diffLes r ea s)

/-- 43_data_transfer R266. -/
def diffLahf (s : State) : Except Fault (List Write) :=
  .ok [.ip (nextIp .lahf s), .reg8 .ah (loByte (flagsWord s))]

/-- The step of `lahf`, inside `SIMULATED` or not (43_data_transfer R240). -/
def execLahf (s : State) : Host.Outcome State Fault Refusal :=
  complete .lahf s (diffLahf s)

/-- 43_data_transfer R267: CF, PF, AF, ZF, SF from `ah`. -/
def diffSahf (s : State) : Except Fault (List Write) :=
  .ok ([.ip (nextIp .sahf s)] ++ flagsFrom Flag.low ((s.reg8 .ah).setWidth 16))

/-- The step of `sahf`, inside `SIMULATED` or not (43_data_transfer R240). -/
def execSahf (s : State) : Host.Outcome State Fault Refusal :=
  complete .sahf s (diffSahf s)

/-- 43_data_transfer R268. -/
def diffPushf (s : State) : Except Fault (List Write) :=
  pushDiff .pushf s (flagsWord s)

/-- The step of `pushf`, inside `SIMULATED` or not (43_data_transfer R240). -/
def execPushf (s : State) : Host.Outcome State Fault Refusal :=
  complete .pushf s (diffPushf s)

/-- 43_data_transfer R269: all nine flags. -/
def diffPopf (s : State) : Except Fault (List Write) :=
  do
  let v ← pop16 s 1
  return [.ip (nextIp .popf s), spAfterPop s 1 0] ++ flagsFrom Flag.all v

/-- The step of `popf`, inside `SIMULATED` or not (43_data_transfer R240). -/
def execPopf (s : State) : Host.Outcome State Fault Refusal :=
  complete .popf s (diffPopf s)

end Sys2Proof.Machine
end

