-- ==== Sys2Proof/Machine/LogicShift.lean ====
section
/-! DEFINITION. The logic, shift and rotate instructions (spec 45_logic_shift). -/

namespace Sys2Proof.Machine

/-- The template of a two-operand logic kind (45_logic_shift R320): the result written, flags of `Logic`. -/
def logicDiff (i : Instr) (s : State) (w : Width) (op1 : Operand) (src : Except Fault Nat) (f : Nat → Nat → Nat) :
    Except Fault (List Write) := do
  let a ← readOp s w op1
  let b ← src
  let ws ← writeOp s w op1 (f a b)
  return [.ip (nextIp i s)] ++ ws ++ logicFlags s w (f a b)

/-- TEST: the result is discarded (45_logic_shift R320, R332). -/
def testDiff (i : Instr) (s : State) (w : Width) (op1 : Operand) (src : Except Fault Nat) :
    Except Fault (List Write) := do
  let a ← readOp s w op1
  let b ← src
  return [.ip (nextIp i s)] ++ logicFlags s w (a &&& b)

/-- The template of a shift or rotate (45_logic_shift R320): with a count of 0 only `ip` changes. -/
def shiftDiff (i : Instr) (s : State) (op : ShiftOp) (dst : Operand) (count : ShiftCount) :
    Except Fault (List Write) := do
  let w := dst.width
  let c := shiftCount s count
  let a ← readOp s w dst
  if c = 0 then return [.ip (nextIp i s)]
  else
    let x := shiftRot op w c (a, s.flag .CF)
    let ws ← writeOp s w dst x.1
    return [.ip (nextIp i s)] ++ ws ++ shiftFlags s op w c a x.1 x.2

/-- 45_logic_shift R321: `M(w) - 1 - a`, no flag. -/
def diffNot (lock : Bool) (op : Operand) (s : State) : Except Fault (List Write) :=
  do
  let a ← readOp s op.width op
  let ws ← writeOp s op.width op (modulus op.width - 1 - a)
  return [.ip (nextIp (.not lock op) s)] ++ ws

/-- The step of `not`, inside `SIMULATED` or not (43_data_transfer R240). -/
def execNot (lock : Bool) (op : Operand) (s : State) : Host.Outcome State Fault Refusal :=
  complete .not s (diffNot lock op s)

/-- 45_logic_shift R322. -/
def diffShl (op : Operand) (count : ShiftCount) (s : State) : Except Fault (List Write) :=
  shiftDiff (.shl op count) s .shl op count

/-- The step of `shl`, inside `SIMULATED` or not (43_data_transfer R240). -/
def execShl (op : Operand) (count : ShiftCount) (s : State) : Host.Outcome State Fault Refusal :=
  complete .shl s (diffShl op count s)

/-- 45_logic_shift R323. -/
def diffShr (op : Operand) (count : ShiftCount) (s : State) : Except Fault (List Write) :=
  shiftDiff (.shr op count) s .shr op count

/-- The step of `shr`, inside `SIMULATED` or not (43_data_transfer R240). -/
def execShr (op : Operand) (count : ShiftCount) (s : State) : Host.Outcome State Fault Refusal :=
  complete .shr s (diffShr op count s)

/-- 45_logic_shift R324. -/
def diffSar (op : Operand) (count : ShiftCount) (s : State) : Except Fault (List Write) :=
  shiftDiff (.sar op count) s .sar op count

/-- The step of `sar`, inside `SIMULATED` or not (43_data_transfer R240). -/
def execSar (op : Operand) (count : ShiftCount) (s : State) : Host.Outcome State Fault Refusal :=
  complete .sar s (diffSar op count s)

/-- 45_logic_shift R325. -/
def diffRol (op : Operand) (count : ShiftCount) (s : State) : Except Fault (List Write) :=
  shiftDiff (.rol op count) s .rol op count

/-- The step of `rol`, inside `SIMULATED` or not (43_data_transfer R240). -/
def execRol (op : Operand) (count : ShiftCount) (s : State) : Host.Outcome State Fault Refusal :=
  complete .rol s (diffRol op count s)

/-- 45_logic_shift R326. -/
def diffRor (op : Operand) (count : ShiftCount) (s : State) : Except Fault (List Write) :=
  shiftDiff (.ror op count) s .ror op count

/-- The step of `ror`, inside `SIMULATED` or not (43_data_transfer R240). -/
def execRor (op : Operand) (count : ShiftCount) (s : State) : Host.Outcome State Fault Refusal :=
  complete .ror s (diffRor op count s)

/-- 45_logic_shift R327. -/
def diffRcl (op : Operand) (count : ShiftCount) (s : State) : Except Fault (List Write) :=
  shiftDiff (.rcl op count) s .rcl op count

/-- The step of `rcl`, inside `SIMULATED` or not (43_data_transfer R240). -/
def execRcl (op : Operand) (count : ShiftCount) (s : State) : Host.Outcome State Fault Refusal :=
  complete .rcl s (diffRcl op count s)

/-- 45_logic_shift R328. -/
def diffRcr (op : Operand) (count : ShiftCount) (s : State) : Except Fault (List Write) :=
  shiftDiff (.rcr op count) s .rcr op count

/-- The step of `rcr`, inside `SIMULATED` or not (43_data_transfer R240). -/
def execRcr (op : Operand) (count : ShiftCount) (s : State) : Host.Outcome State Fault Refusal :=
  complete .rcr s (diffRcr op count s)

/-- 45_logic_shift R329. -/
def diffAndRmReg (lock : Bool) (op1 : Operand) (op2 : Operand) (s : State) : Except Fault (List Write) :=
  logicDiff (.andRmReg lock op1 op2) s (pairWidth op1 op2) op1 (readOp s (pairWidth op1 op2) op2) (· &&& ·)

/-- The step of `andRmReg`, inside `SIMULATED` or not (43_data_transfer R240). -/
def execAndRmReg (lock : Bool) (op1 : Operand) (op2 : Operand) (s : State) : Host.Outcome State Fault Refusal :=
  complete .andRmReg s (diffAndRmReg lock op1 op2 s)

/-- 45_logic_shift R330. -/
def diffAndRmImm (lock : Bool) (op1 : Operand) (imm : Imm) (s : State) : Except Fault (List Write) :=
  logicDiff (.andRmImm lock op1 imm) s op1.width op1 (.ok (immVal op1.width imm)) (· &&& ·)

/-- The step of `andRmImm`, inside `SIMULATED` or not (43_data_transfer R240). -/
def execAndRmImm (lock : Bool) (op1 : Operand) (imm : Imm) (s : State) : Host.Outcome State Fault Refusal :=
  complete .andRmImm s (diffAndRmImm lock op1 imm s)

/-- 45_logic_shift R331. -/
def diffAndAccImm (imm : Imm) (s : State) : Except Fault (List Write) :=
  logicDiff (.andAccImm imm) s imm.width (acc imm.width) (.ok (immVal imm.width imm)) (· &&& ·)

/-- The step of `andAccImm`, inside `SIMULATED` or not (43_data_transfer R240). -/
def execAndAccImm (imm : Imm) (s : State) : Host.Outcome State Fault Refusal :=
  complete .andAccImm s (diffAndAccImm imm s)

/-- 45_logic_shift R332. -/
def diffTestRmReg (op1 : Operand) (op2 : Operand) (s : State) : Except Fault (List Write) :=
  testDiff (.testRmReg op1 op2) s (pairWidth op1 op2) op1 (readOp s (pairWidth op1 op2) op2)

/-- The step of `testRmReg`, inside `SIMULATED` or not (43_data_transfer R240). -/
def execTestRmReg (op1 : Operand) (op2 : Operand) (s : State) : Host.Outcome State Fault Refusal :=
  complete .testRmReg s (diffTestRmReg op1 op2 s)

/-- 45_logic_shift R333. -/
def diffTestRmImm (op1 : Operand) (imm : Imm) (s : State) : Except Fault (List Write) :=
  testDiff (.testRmImm op1 imm) s op1.width op1 (.ok (immVal op1.width imm))

/-- The step of `testRmImm`, inside `SIMULATED` or not (43_data_transfer R240). -/
def execTestRmImm (op1 : Operand) (imm : Imm) (s : State) : Host.Outcome State Fault Refusal :=
  complete .testRmImm s (diffTestRmImm op1 imm s)

/-- 45_logic_shift R334. -/
def diffTestAccImm (imm : Imm) (s : State) : Except Fault (List Write) :=
  testDiff (.testAccImm imm) s imm.width (acc imm.width) (.ok (immVal imm.width imm))

/-- The step of `testAccImm`, inside `SIMULATED` or not (43_data_transfer R240). -/
def execTestAccImm (imm : Imm) (s : State) : Host.Outcome State Fault Refusal :=
  complete .testAccImm s (diffTestAccImm imm s)

/-- 45_logic_shift R335. -/
def diffOrRmReg (lock : Bool) (op1 : Operand) (op2 : Operand) (s : State) : Except Fault (List Write) :=
  logicDiff (.orRmReg lock op1 op2) s (pairWidth op1 op2) op1 (readOp s (pairWidth op1 op2) op2) (· ||| ·)

/-- The step of `orRmReg`, inside `SIMULATED` or not (43_data_transfer R240). -/
def execOrRmReg (lock : Bool) (op1 : Operand) (op2 : Operand) (s : State) : Host.Outcome State Fault Refusal :=
  complete .orRmReg s (diffOrRmReg lock op1 op2 s)

/-- 45_logic_shift R336. -/
def diffOrRmImm (lock : Bool) (op1 : Operand) (imm : Imm) (s : State) : Except Fault (List Write) :=
  logicDiff (.orRmImm lock op1 imm) s op1.width op1 (.ok (immVal op1.width imm)) (· ||| ·)

/-- The step of `orRmImm`, inside `SIMULATED` or not (43_data_transfer R240). -/
def execOrRmImm (lock : Bool) (op1 : Operand) (imm : Imm) (s : State) : Host.Outcome State Fault Refusal :=
  complete .orRmImm s (diffOrRmImm lock op1 imm s)

/-- 45_logic_shift R337. -/
def diffOrAccImm (imm : Imm) (s : State) : Except Fault (List Write) :=
  logicDiff (.orAccImm imm) s imm.width (acc imm.width) (.ok (immVal imm.width imm)) (· ||| ·)

/-- The step of `orAccImm`, inside `SIMULATED` or not (43_data_transfer R240). -/
def execOrAccImm (imm : Imm) (s : State) : Host.Outcome State Fault Refusal :=
  complete .orAccImm s (diffOrAccImm imm s)

/-- 45_logic_shift R338. -/
def diffXorRmReg (lock : Bool) (op1 : Operand) (op2 : Operand) (s : State) : Except Fault (List Write) :=
  logicDiff (.xorRmReg lock op1 op2) s (pairWidth op1 op2) op1 (readOp s (pairWidth op1 op2) op2) (· ^^^ ·)

/-- The step of `xorRmReg`, inside `SIMULATED` or not (43_data_transfer R240). -/
def execXorRmReg (lock : Bool) (op1 : Operand) (op2 : Operand) (s : State) : Host.Outcome State Fault Refusal :=
  complete .xorRmReg s (diffXorRmReg lock op1 op2 s)

/-- 45_logic_shift R339. -/
def diffXorRmImm (lock : Bool) (op1 : Operand) (imm : Imm) (s : State) : Except Fault (List Write) :=
  logicDiff (.xorRmImm lock op1 imm) s op1.width op1 (.ok (immVal op1.width imm)) (· ^^^ ·)

/-- The step of `xorRmImm`, inside `SIMULATED` or not (43_data_transfer R240). -/
def execXorRmImm (lock : Bool) (op1 : Operand) (imm : Imm) (s : State) : Host.Outcome State Fault Refusal :=
  complete .xorRmImm s (diffXorRmImm lock op1 imm s)

/-- 45_logic_shift R340. -/
def diffXorAccImm (imm : Imm) (s : State) : Except Fault (List Write) :=
  logicDiff (.xorAccImm imm) s imm.width (acc imm.width) (.ok (immVal imm.width imm)) (· ^^^ ·)

/-- The step of `xorAccImm`, inside `SIMULATED` or not (43_data_transfer R240). -/
def execXorAccImm (imm : Imm) (s : State) : Host.Outcome State Fault Refusal :=
  complete .xorAccImm s (diffXorAccImm imm s)

end Sys2Proof.Machine
end

