-- ==== Sys2Proof/Machine/ProcessorControl.lean ====
section
/-! DEFINITION. The processor control instructions and the unknown marker (spec 48_processor_control). -/

namespace Sys2Proof.Machine

/-- A flag instruction: `ip` and one flag (48_processor_control R410 to R416). -/
def flagDiff (i : Instr) (s : State) (f : Flag) (v : Bool) : Except Fault (List Write) :=
  .ok [.ip (nextIp i s), .flag f v]

/-- 48_processor_control R410. -/
def diffClc (s : State) : Except Fault (List Write) :=
  flagDiff .clc s .CF false

/-- The step of `clc`, inside `SIMULATED` or not (43_data_transfer R240). -/
def execClc (s : State) : Host.Outcome State Fault Refusal :=
  complete .clc s (diffClc s)

/-- 48_processor_control R411. -/
def diffCmc (s : State) : Except Fault (List Write) :=
  flagDiff .cmc s .CF (!s.flag .CF)

/-- The step of `cmc`, inside `SIMULATED` or not (43_data_transfer R240). -/
def execCmc (s : State) : Host.Outcome State Fault Refusal :=
  complete .cmc s (diffCmc s)

/-- 48_processor_control R412. -/
def diffStc (s : State) : Except Fault (List Write) :=
  flagDiff .stc s .CF true

/-- The step of `stc`, inside `SIMULATED` or not (43_data_transfer R240). -/
def execStc (s : State) : Host.Outcome State Fault Refusal :=
  complete .stc s (diffStc s)

/-- 48_processor_control R413. -/
def diffCld (s : State) : Except Fault (List Write) :=
  flagDiff .cld s .DF false

/-- The step of `cld`, inside `SIMULATED` or not (43_data_transfer R240). -/
def execCld (s : State) : Host.Outcome State Fault Refusal :=
  complete .cld s (diffCld s)

/-- 48_processor_control R414. -/
def diffStd (s : State) : Except Fault (List Write) :=
  flagDiff .std s .DF true

/-- The step of `std`, inside `SIMULATED` or not (43_data_transfer R240). -/
def execStd (s : State) : Host.Outcome State Fault Refusal :=
  complete .std s (diffStd s)

/-- 48_processor_control R415. -/
def diffCli (s : State) : Except Fault (List Write) :=
  flagDiff .cli s .IF false

/-- The step of `cli`, inside `SIMULATED` or not (43_data_transfer R240). -/
def execCli (s : State) : Host.Outcome State Fault Refusal :=
  complete .cli s (diffCli s)

/-- 48_processor_control R416. -/
def diffSti (s : State) : Except Fault (List Write) :=
  flagDiff .sti s .IF true

/-- The step of `sti`, inside `SIMULATED` or not (43_data_transfer R240). -/
def execSti (s : State) : Host.Outcome State Fault Refusal :=
  complete .sti s (diffSti s)

/-- 48_processor_control R417: the empty diff, which leaves the block stuck (log 10). -/
def diffHlt (_s : State) : Except Fault (List Write) :=
  .ok []

/-- The step of `hlt`, inside `SIMULATED` or not (43_data_transfer R240). -/
def execHlt (s : State) : Host.Outcome State Fault Refusal :=
  complete .hlt s (diffHlt s)

/-- 48_processor_control R418: the empty diff, which leaves the block stuck (log 10). -/
def diffWait (_s : State) : Except Fault (List Write) :=
  .ok []

/-- The step of `wait`, inside `SIMULATED` or not (43_data_transfer R240). -/
def execWait (s : State) : Host.Outcome State Fault Refusal :=
  complete .wait s (diffWait s)

/-- 48_processor_control R419. Not in the default `SIMULATED`; the 8086 meaning when it is in: no CPU register
changes (log 9). -/
def diffEsc (opcode : BitVec 6) (op : Operand) (s : State) : Except Fault (List Write) :=
  .ok [.ip (nextIp (.esc opcode op) s)]

/-- The step of `esc`, inside `SIMULATED` or not (43_data_transfer R240). -/
def execEsc (opcode : BitVec 6) (op : Operand) (s : State) : Host.Outcome State Fault Refusal :=
  complete .esc s (diffEsc opcode op s)

/-- 48_processor_control R420: the marker is never simulated, whatever `SIMULATED` holds. -/
def diffUnknown (_b : Byte) (_s : State) : Except Fault (List Write) :=
  .ok []

/-- The step of `unknown`, inside `SIMULATED` or not (43_data_transfer R240). -/
def execUnknown (_b : Byte) (s : State) : Host.Outcome State Fault Refusal :=
  complete .unknown s (diffUnknown _b s)

end Sys2Proof.Machine
end

