-- ==== Sys2Proof/Machine/StringOps.lean ====
section
/-! DEFINITION. The string instructions and the repeat (spec 46_string). -/

namespace Sys2Proof.Machine

/-- `delta`: the element size, negative when DF = 1 (46_string R350). -/
def stringDelta (s : State) (w : Width) : Word :=
  if s.flag .DF then - BitVec.ofNat 16 (accessSize w) else BitVec.ofNat 16 (accessSize w)

/-- The source element is at `Phys(ds, si)` (46_string R350). -/
def sourceAddr (s : State) : Nat := phys (s.seg .ds) (s.reg .si).toNat

/-- The destination element is at `Phys(es, di)` (46_string R350). -/
def destAddr (s : State) : Nat := phys (s.seg .es) (s.reg .di).toNat

/-- An index register moved by one element (46_string R350). -/
def advance (s : State) (w : Width) (r : Reg16) : Write := .reg r (s.reg r + stringDelta s w)

/-- The accumulator entry of LODS (46_string R355). -/
def loadAcc (w : Width) (v : Nat) : Write :=
  match w with
  | .byte => .reg8 .al (BitVec.ofNat 8 v)
  | .word => .reg .ax (BitVec.ofNat 16 v)

/-- The body of MOVS on the working state (46_string R352). -/
def movsElement (w : Width) (t : State) : Except Fault (List Write) := do
  let v ← memRead t w (sourceAddr t)
  let m ← memWrite t w (destAddr t) v
  return m ++ [advance t w .si, advance t w .di]

/-- The body of CMPS on the working state: the source element is the minuend (46_string R353). -/
def cmpsElement (w : Width) (t : State) : Except Fault (List Write) := do
  let a ← memRead t w (sourceAddr t)
  let b ← memRead t w (destAddr t)
  return [advance t w .si, advance t w .di] ++ (aluSub w a b false).flagsAll

/-- The body of SCAS on the working state (46_string R354). -/
def scasElement (w : Width) (t : State) : Except Fault (List Write) := do
  let a ← readOp t w (acc w)
  let b ← memRead t w (destAddr t)
  return [advance t w .di] ++ (aluSub w a b false).flagsAll

/-- The body of LODS on the working state (46_string R355). -/
def lodsElement (w : Width) (t : State) : Except Fault (List Write) := do
  let v ← memRead t w (sourceAddr t)
  return [loadAcc w v, advance t w .si]

/-- The body of STOS on the working state (46_string R356). -/
def stosElement (w : Width) (t : State) : Except Fault (List Write) := do
  let v ← readOp t w (acc w)
  let m ← memWrite t w (destAddr t) v
  return m ++ [advance t w .di]

/-- When CMPS and SCAS leave the loop before `cx` is 0: REP on ZF = 0, REPNE on ZF = 1 (46_string R351). -/
def repeatStops (r : Rep) (t : State) : Bool :=
  match r with
  | .none => false
  | .rep => !t.flag .ZF
  | .repne => t.flag .ZF

/-- A memory entry of a diff. -/
def Write.isMem : Write → Bool
  | .mem _ _ => true
  | .ip _ => false
  | .reg _ _ => false
  | .reg8 _ _ => false
  | .seg _ _ => false
  | .flag _ _ => false
  | .draw => false

/-- The loop of a repeat (46_string R351): at most `n` elements on working copies, each seeing what the ones before
it left. It answers the memory entries in iteration order and the working copies after the loop. -/
def repeatElements (element : State → Except Fault (List Write)) (stop : State → Bool) :
    Nat → State → Except Fault (List Write × State)
  | 0, t => .ok ([], t)
  | n + 1, t => do
    let ws ← element t
    let t' := (commit ws t).setReg .cx (t.reg .cx - 1)
    if stop t' then return (ws.filter Write.isMem, t')
    else
      let (ms, t'') ← repeatElements element stop n t'
      return (ws.filter Write.isMem ++ ms, t'')

/-- The flag entries after a repeat: the working copies of the six arithmetic flags (46_string R351). -/
def workingFlags (t : State) : List Write :=
  [.CF, .PF, .AF, .ZF, .SF, .OF].map fun f => .flag f (t.flag f)

/-- The diff of a string record (46_string R351). `index` lists the index registers the kind uses; `loads` is the
width of the accumulator LODS loads; `compares` says whether the kind writes flags. -/
def stringDiff (i : Instr) (s : State) (r : Rep) (element : State → Except Fault (List Write)) (index : List Reg16)
    (loads : Option Width) (compares : Bool) : Except Fault (List Write) := do
  if r = .none then
    let ws ← element s
    return [.ip (nextIp i s)] ++ ws
  else
    let (ms, t) ← repeatElements element (fun t => compares && repeatStops r t) (s.reg .cx).toNat s
    return [.ip (nextIp i s)] ++ ms ++ (index.map fun x => .reg x (t.reg x)) ++ [.reg .cx (t.reg .cx)] ++
      (match loads with
       | some .byte => [.reg8 .al (t.reg8 .al)]
       | some .word => [.reg .ax (t.reg .ax)]
       | none => []) ++
      (if compares ∧ s.reg .cx ≠ 0 then workingFlags t else [])

/-- 46_string R352, R351. -/
def diffMovs (w : Width) (r : Rep) (s : State) : Except Fault (List Write) :=
  stringDiff (.movs w r) s r (movsElement w) [.si, .di] none false

/-- The step of `movs`, inside `SIMULATED` or not (43_data_transfer R240). -/
def execMovs (w : Width) (r : Rep) (s : State) : Host.Outcome State Fault Refusal :=
  complete .movs s (diffMovs w r s)

/-- 46_string R353, R351. -/
def diffCmps (w : Width) (r : Rep) (s : State) : Except Fault (List Write) :=
  stringDiff (.cmps w r) s r (cmpsElement w) [.si, .di] none true

/-- The step of `cmps`, inside `SIMULATED` or not (43_data_transfer R240). -/
def execCmps (w : Width) (r : Rep) (s : State) : Host.Outcome State Fault Refusal :=
  complete .cmps s (diffCmps w r s)

/-- 46_string R354, R351. -/
def diffScas (w : Width) (r : Rep) (s : State) : Except Fault (List Write) :=
  stringDiff (.scas w r) s r (scasElement w) [.di] none true

/-- The step of `scas`, inside `SIMULATED` or not (43_data_transfer R240). -/
def execScas (w : Width) (r : Rep) (s : State) : Host.Outcome State Fault Refusal :=
  complete .scas s (diffScas w r s)

/-- 46_string R355, R351. -/
def diffLods (w : Width) (r : Rep) (s : State) : Except Fault (List Write) :=
  stringDiff (.lods w r) s r (lodsElement w) [.si] (some w) false

/-- The step of `lods`, inside `SIMULATED` or not (43_data_transfer R240). -/
def execLods (w : Width) (r : Rep) (s : State) : Host.Outcome State Fault Refusal :=
  complete .lods s (diffLods w r s)

/-- 46_string R356, R351. -/
def diffStos (w : Width) (r : Rep) (s : State) : Except Fault (List Write) :=
  stringDiff (.stos w r) s r (stosElement w) [.di] none false

/-- The step of `stos`, inside `SIMULATED` or not (43_data_transfer R240). -/
def execStos (w : Width) (r : Rep) (s : State) : Host.Outcome State Fault Refusal :=
  complete .stos s (diffStos w r s)

end Sys2Proof.Machine
end

