-- ==== Sys2Proof/Machine/Diff.lean ====
section
/-! DEFINITION. `Step` as the table from records to diffs, and the diff as the trace interface of the block (spec
10_state R37 to R41, 60_exceptions R449). -/

namespace Sys2Proof.Machine

/-- The kind of a record (30_encoding R105); a reserved row and a prefix row have none. -/
def recordKind : Instr → Option Kind
  | .movRmReg _ _ => some .movRmReg
  | .movRmImm _ _ => some .movRmImm
  | .movRegImm _ _ => some .movRegImm
  | .movAccMem _ _ => some .movAccMem
  | .movMemAcc _ _ => some .movMemAcc
  | .movSregRm _ _ => some .movSregRm
  | .movRmSreg _ _ => some .movRmSreg
  | .pushRm _ => some .pushRm
  | .pushReg _ => some .pushReg
  | .pushSreg _ => some .pushSreg
  | .popRm _ => some .popRm
  | .popReg _ => some .popReg
  | .popSreg _ => some .popSreg
  | .xchgRmReg _ _ _ => some .xchgRmReg
  | .xchgAccReg _ => some .xchgAccReg
  | .inFixed _ _ => some .inFixed
  | .inVar _ => some .inVar
  | .outFixed _ _ => some .outFixed
  | .outVar _ => some .outVar
  | .xlat => some .xlat
  | .lea _ _ => some .lea
  | .lds _ _ => some .lds
  | .les _ _ => some .les
  | .lahf => some .lahf
  | .sahf => some .sahf
  | .pushf => some .pushf
  | .popf => some .popf
  | .addRmReg _ _ _ => some .addRmReg
  | .addRmImm _ _ _ => some .addRmImm
  | .addAccImm _ => some .addAccImm
  | .adcRmReg _ _ _ => some .adcRmReg
  | .adcRmImm _ _ _ => some .adcRmImm
  | .adcAccImm _ => some .adcAccImm
  | .incRm _ _ => some .incRm
  | .incReg _ => some .incReg
  | .aaa => some .aaa
  | .daa => some .daa
  | .subRmReg _ _ _ => some .subRmReg
  | .subRmImm _ _ _ => some .subRmImm
  | .subAccImm _ => some .subAccImm
  | .sbbRmReg _ _ _ => some .sbbRmReg
  | .sbbRmImm _ _ _ => some .sbbRmImm
  | .sbbAccImm _ => some .sbbAccImm
  | .decRm _ _ => some .decRm
  | .decReg _ => some .decReg
  | .neg _ _ => some .neg
  | .cmpRmReg _ _ => some .cmpRmReg
  | .cmpRmImm _ _ => some .cmpRmImm
  | .cmpAccImm _ => some .cmpAccImm
  | .aas => some .aas
  | .das => some .das
  | .mul _ => some .mul
  | .imul _ => some .imul
  | .aam => some .aam
  | .div _ => some .div
  | .idiv _ => some .idiv
  | .aad => some .aad
  | .cbw => some .cbw
  | .cwd => some .cwd
  | .not _ _ => some .not
  | .shl _ _ => some .shl
  | .shr _ _ => some .shr
  | .sar _ _ => some .sar
  | .rol _ _ => some .rol
  | .ror _ _ => some .ror
  | .rcl _ _ => some .rcl
  | .rcr _ _ => some .rcr
  | .andRmReg _ _ _ => some .andRmReg
  | .andRmImm _ _ _ => some .andRmImm
  | .andAccImm _ => some .andAccImm
  | .testRmReg _ _ => some .testRmReg
  | .testRmImm _ _ => some .testRmImm
  | .testAccImm _ => some .testAccImm
  | .orRmReg _ _ _ => some .orRmReg
  | .orRmImm _ _ _ => some .orRmImm
  | .orAccImm _ => some .orAccImm
  | .xorRmReg _ _ _ => some .xorRmReg
  | .xorRmImm _ _ _ => some .xorRmImm
  | .xorAccImm _ => some .xorAccImm
  | .movs _ _ => some .movs
  | .cmps _ _ => some .cmps
  | .scas _ _ => some .scas
  | .lods _ _ => some .lods
  | .stos _ _ => some .stos
  | .callNear _ => some .callNear
  | .callNearInd _ => some .callNearInd
  | .callFar _ _ => some .callFar
  | .callFarInd _ => some .callFarInd
  | .jmpNear _ => some .jmpNear
  | .jmpShort _ => some .jmpShort
  | .jmpNearInd _ => some .jmpNearInd
  | .jmpFar _ _ => some .jmpFar
  | .jmpFarInd _ => some .jmpFarInd
  | .retNear => some .retNear
  | .retNearImm _ => some .retNearImm
  | .retFar => some .retFar
  | .retFarImm _ => some .retFarImm
  | .je _ => some .je
  | .jl _ => some .jl
  | .jle _ => some .jle
  | .jb _ => some .jb
  | .jbe _ => some .jbe
  | .jp _ => some .jp
  | .jo _ => some .jo
  | .js _ => some .js
  | .jne _ => some .jne
  | .jnl _ => some .jnl
  | .jnle _ => some .jnle
  | .jnb _ => some .jnb
  | .jnbe _ => some .jnbe
  | .jnp _ => some .jnp
  | .jno _ => some .jno
  | .jns _ => some .jns
  | .loop _ => some .loop
  | .loopz _ => some .loopz
  | .loopnz _ => some .loopnz
  | .jcxz _ => some .jcxz
  | .int _ => some .int
  | .int3 => some .int3
  | .into => some .into
  | .iret => some .iret
  | .clc => some .clc
  | .cmc => some .cmc
  | .stc => some .stc
  | .cld => some .cld
  | .std => some .std
  | .cli => some .cli
  | .sti => some .sti
  | .hlt => some .hlt
  | .wait => some .wait
  | .esc _ _ => some .esc
  | .unknown _ => some .unknown
  | .reserved _ _ => none
  | .seg _ _ => none
  | .lock _ => none
  | .repne _ => none
  | .rep _ => none

/-- The diff the rule of a record gives, before `SIMULATED` is looked at (files 43 to 48 of the spec). A reserved row
raises the reason of 30_encoding R128; a prefix row is no record (40_decoder_prefixes R145), so its bytes are still
unconsumed. -/
def ruleDiff (i : Instr) (s : State) : Except Fault (List Write) :=
  match i with
  | .movRmReg a b => diffMovRmReg a b s
  | .movRmImm a b => diffMovRmImm a b s
  | .movRegImm a b => diffMovRegImm a b s
  | .movAccMem a b => diffMovAccMem a b s
  | .movMemAcc a b => diffMovMemAcc a b s
  | .movSregRm a b => diffMovSregRm a b s
  | .movRmSreg a b => diffMovRmSreg a b s
  | .pushRm a => diffPushRm a s
  | .pushReg a => diffPushReg a s
  | .pushSreg a => diffPushSreg a s
  | .popRm a => diffPopRm a s
  | .popReg a => diffPopReg a s
  | .popSreg a => diffPopSreg a s
  | .xchgRmReg a b c => diffXchgRmReg a b c s
  | .xchgAccReg a => diffXchgAccReg a s
  | .inFixed a b => diffInFixed a b s
  | .inVar a => diffInVar a s
  | .outFixed a b => diffOutFixed a b s
  | .outVar a => diffOutVar a s
  | .xlat => diffXlat s
  | .lea a b => diffLea a b s
  | .lds a b => diffLds a b s
  | .les a b => diffLes a b s
  | .lahf => diffLahf s
  | .sahf => diffSahf s
  | .pushf => diffPushf s
  | .popf => diffPopf s
  | .addRmReg a b c => diffAddRmReg a b c s
  | .addRmImm a b c => diffAddRmImm a b c s
  | .addAccImm a => diffAddAccImm a s
  | .adcRmReg a b c => diffAdcRmReg a b c s
  | .adcRmImm a b c => diffAdcRmImm a b c s
  | .adcAccImm a => diffAdcAccImm a s
  | .incRm a b => diffIncRm a b s
  | .incReg a => diffIncReg a s
  | .aaa => diffAaa s
  | .daa => diffDaa s
  | .subRmReg a b c => diffSubRmReg a b c s
  | .subRmImm a b c => diffSubRmImm a b c s
  | .subAccImm a => diffSubAccImm a s
  | .sbbRmReg a b c => diffSbbRmReg a b c s
  | .sbbRmImm a b c => diffSbbRmImm a b c s
  | .sbbAccImm a => diffSbbAccImm a s
  | .decRm a b => diffDecRm a b s
  | .decReg a => diffDecReg a s
  | .neg a b => diffNeg a b s
  | .cmpRmReg a b => diffCmpRmReg a b s
  | .cmpRmImm a b => diffCmpRmImm a b s
  | .cmpAccImm a => diffCmpAccImm a s
  | .aas => diffAas s
  | .das => diffDas s
  | .mul a => diffMul a s
  | .imul a => diffImul a s
  | .aam => diffAam s
  | .div a => diffDiv a s
  | .idiv a => diffIdiv a s
  | .aad => diffAad s
  | .cbw => diffCbw s
  | .cwd => diffCwd s
  | .not a b => diffNot a b s
  | .shl a b => diffShl a b s
  | .shr a b => diffShr a b s
  | .sar a b => diffSar a b s
  | .rol a b => diffRol a b s
  | .ror a b => diffRor a b s
  | .rcl a b => diffRcl a b s
  | .rcr a b => diffRcr a b s
  | .andRmReg a b c => diffAndRmReg a b c s
  | .andRmImm a b c => diffAndRmImm a b c s
  | .andAccImm a => diffAndAccImm a s
  | .testRmReg a b => diffTestRmReg a b s
  | .testRmImm a b => diffTestRmImm a b s
  | .testAccImm a => diffTestAccImm a s
  | .orRmReg a b c => diffOrRmReg a b c s
  | .orRmImm a b c => diffOrRmImm a b c s
  | .orAccImm a => diffOrAccImm a s
  | .xorRmReg a b c => diffXorRmReg a b c s
  | .xorRmImm a b c => diffXorRmImm a b c s
  | .xorAccImm a => diffXorAccImm a s
  | .movs a b => diffMovs a b s
  | .cmps a b => diffCmps a b s
  | .scas a b => diffScas a b s
  | .lods a b => diffLods a b s
  | .stos a b => diffStos a b s
  | .callNear a => diffCallNear a s
  | .callNearInd a => diffCallNearInd a s
  | .callFar a b => diffCallFar a b s
  | .callFarInd a => diffCallFarInd a s
  | .jmpNear a => diffJmpNear a s
  | .jmpShort a => diffJmpShort a s
  | .jmpNearInd a => diffJmpNearInd a s
  | .jmpFar a b => diffJmpFar a b s
  | .jmpFarInd a => diffJmpFarInd a s
  | .retNear => diffRetNear s
  | .retNearImm a => diffRetNearImm a s
  | .retFar => diffRetFar s
  | .retFarImm a => diffRetFarImm a s
  | .je a => diffJe a s
  | .jl a => diffJl a s
  | .jle a => diffJle a s
  | .jb a => diffJb a s
  | .jbe a => diffJbe a s
  | .jp a => diffJp a s
  | .jo a => diffJo a s
  | .js a => diffJs a s
  | .jne a => diffJne a s
  | .jnl a => diffJnl a s
  | .jnle a => diffJnle a s
  | .jnb a => diffJnb a s
  | .jnbe a => diffJnbe a s
  | .jnp a => diffJnp a s
  | .jno a => diffJno a s
  | .jns a => diffJns a s
  | .loop a => diffLoop a s
  | .loopz a => diffLoopz a s
  | .loopnz a => diffLoopnz a s
  | .jcxz a => diffJcxz a s
  | .int a => diffInt a s
  | .int3 => diffInt3 s
  | .into => diffInto s
  | .iret => diffIret s
  | .clc => diffClc s
  | .cmc => diffCmc s
  | .stc => diffStc s
  | .cld => diffCld s
  | .std => diffStd s
  | .cli => diffCli s
  | .sti => diffSti s
  | .hlt => diffHlt s
  | .wait => diffWait s
  | .esc a b => diffEsc a b s
  | .unknown a => diffUnknown a s
  | .reserved b0 b1 =>
    .error (.malformedEncoding ((reservedReason b0 b1).getD .reservedEncoding) s.ip.toNat)
  | .seg _ _ => .error (.malformedEncoding .unconsumedPrefix s.ip.toNat)
  | .lock _ => .error (.malformedEncoding .unconsumedPrefix s.ip.toNat)
  | .repne _ => .error (.malformedEncoding .unconsumedPrefix s.ip.toNat)
  | .rep _ => .error (.malformedEncoding .unconsumedPrefix s.ip.toNat)

/-- `Step(state, rec)` (10_state R37): the empty diff outside `SIMULATED` (60_exceptions R437), else the rule's diff. -/
def stepDiff (i : Instr) (s : State) : Except Fault (List Write) :=
  match recordKind i with
  | some k => if k ∈ s.cfg.simulated then ruleDiff i s else .ok []
  | none => ruleDiff i s

/-- The step of a record, as an outcome. -/
def runRecord (i : Instr) (s : State) : Host.Outcome State Fault Refusal :=
  match recordKind i with
  | some k => complete k s (ruleDiff i s)
  | none =>
    match ruleDiff i s with
    | .error f => raise f
    | .ok _ => .next (stuck s)

/-- A state field a diff entry can name (10_state R39). -/
inductive Key where
  | reg (r : Reg16)
  | seg (s : Sreg)
  | ip
  | flag (f : Flag)
deriving DecidableEq, Repr

/-- A diff entry as the spec writes it (10_state R38): a field or a memory byte, before and after. -/
inductive Entry where
  | field (key : Key) (before after : Nat)
  | byte (addr : Nat) (before after : Byte)
deriving DecidableEq, Repr

/-- The value of a field, a flag as 0 or 1. -/
def Key.value (s : State) : Key → Nat
  | .reg r => (s.reg r).toNat
  | .seg r => (s.seg r).toNat
  | .ip => s.ip.toNat
  | .flag f => (s.flag f).toNat

/-- The field a write goes to; a byte half is reported on its 16-bit register (10_state R39). -/
def Write.key : Write → Option Key
  | .ip _ => some .ip
  | .reg r _ => some (.reg r)
  | .reg8 r _ => some (.reg r.parent)
  | .seg s _ => some (.seg s)
  | .flag f _ => some (.flag f)
  | .mem _ _ => none
  | .draw => none

/-- The entries of the writes `ws`, from the pre-state `s` to the post-state `s'`, `t` being the state just before
the next write: one entry a field, carrying all its writes (10_state R39); one entry a memory write, with the byte it
had just before (46_string R351). -/
def entriesFrom (s s' : State) : List Key → State → List Write → List Entry
  | _, _, [] => []
  | seen, t, e :: ws =>
    match e with
    | .mem addr v => .byte addr (t.byteAt addr) v :: entriesFrom s s' seen (e.apply t) ws
    | .draw => entriesFrom s s' seen (e.apply t) ws
    | .ip _ | .reg _ _ | .reg8 _ _ | .seg _ _ | .flag _ _ =>
      match e.key with
      | some k =>
        if k ∈ seen then entriesFrom s s' seen (e.apply t) ws
        else .field k (k.value s) (k.value s') :: entriesFrom s s' (k :: seen) (e.apply t) ws
      | none => entriesFrom s s' seen (e.apply t) ws

/-- The diff of a list of writes against a state (10_state R38 to R41). -/
def diffEntries (s : State) (ws : List Write) : List Entry := entriesFrom s (commit ws s) [] s ws

/-- `Apply` of one entry as the spec writes it: the field or byte is set to `after`; `before` is not checked
(10_state R40). -/
def Entry.apply (s : State) : Entry → State
  | .field (.reg r) _ v => s.setReg r (BitVec.ofNat 16 v)
  | .field (.seg r) _ v => s.setSeg r (BitVec.ofNat 16 v)
  | .field .ip _ v => s.setIp (BitVec.ofNat 16 v)
  | .field (.flag f) _ v => s.setFlag f (v != 0)
  | .byte addr _ v => s.setByte addr v

/-- `Apply(state, diff)` on entries (10_state R40). -/
def applyEntries (es : List Entry) (s : State) : State := es.foldl Entry.apply s

/-- The trace of one step (60_exceptions R449): the diff of a record as entries. -/
def stepEntries (i : Instr) (s : State) : Except Fault (List Entry) :=
  match stepDiff i s with
  | .ok ws => .ok (diffEntries s ws)
  | .error f => .error f

end Sys2Proof.Machine
end

