-- ==== Sys2Proof/Machine/Prefixed.lean ====
section
/-! DEFINITION. The meanings of the rows that yield no record of their own: the reserved rows (spec 30_encoding R128)
and the prefix rows (30_encoding R131, 40_decoder_prefixes), log 7. -/

namespace Sys2Proof.Machine

/-- A prefix row: `DecodeOne` folds the prefix bytes into the record of the body (40_decoder_prefixes R140, R145), and
that record is executed; where the bytes do not decode, the decode error ends the run (60_exceptions R433). -/
def runFolded (i : Instr) (s : State) : Host.Outcome State Fault Refusal :=
  match i.fold s.cfg.lockable with
  | .ok j => runRecord j s
  | .error e => raise (.malformedEncoding e s.ip.toNat)

/-- 30_encoding R128, 40_decoder_prefixes R159: `ReservedEncoding`, or `RegisterWhereMemoryRequired` for (h). -/
def execReserved (b0 : Byte) (b1 : Byte) (s : State) : Host.Outcome State Fault Refusal :=
  raise (.malformedEncoding ((reservedReason b0 b1).getD .reservedEncoding) s.ip.toNat)

/-- A segment-override byte in front of an instruction (40_decoder_prefixes R142, R147). -/
def execSeg (sr : Sreg) (i : Instr) (s : State) : Host.Outcome State Fault Refusal := runFolded (.seg sr i) s

/-- A lock byte in front of an instruction (40_decoder_prefixes R143, R148, R152). -/
def execLock (i : Instr) (s : State) : Host.Outcome State Fault Refusal := runFolded (.lock i) s

/-- The byte `F2` in front of an instruction (40_decoder_prefixes R144, R148, R151). -/
def execRepne (i : Instr) (s : State) : Host.Outcome State Fault Refusal := runFolded (.repne i) s

/-- The byte `F3` in front of an instruction (40_decoder_prefixes R144, R148, R151). -/
def execRep (i : Instr) (s : State) : Host.Outcome State Fault Refusal := runFolded (.rep i) s

end Sys2Proof.Machine
end

