-- ==== Sys2Proof/Machine/Dispatch.lean ====
section
/-! DEFINITION. One arm per constructor of `Instr`, each one direct call of its meaning. -/

namespace Sys2Proof.Machine

def exec (i : Instr) (s : State) : Host.Outcome State Fault Refusal :=
  match i with
  -- data transfer
  | .movRmReg dst src => Sys2Proof.Machine.execMovRmReg dst src s
  | .movRmImm dst imm => Sys2Proof.Machine.execMovRmImm dst imm s
  | .movRegImm dst imm => Sys2Proof.Machine.execMovRegImm dst imm s
  | .movAccMem w ea => Sys2Proof.Machine.execMovAccMem w ea s
  | .movMemAcc w ea => Sys2Proof.Machine.execMovMemAcc w ea s
  | .movSregRm dst src => Sys2Proof.Machine.execMovSregRm dst src s
  | .movRmSreg dst src => Sys2Proof.Machine.execMovRmSreg dst src s
  | .pushRm op => Sys2Proof.Machine.execPushRm op s
  | .pushReg r => Sys2Proof.Machine.execPushReg r s
  | .pushSreg sr => Sys2Proof.Machine.execPushSreg sr s
  | .popRm op => Sys2Proof.Machine.execPopRm op s
  | .popReg r => Sys2Proof.Machine.execPopReg r s
  | .popSreg sr => Sys2Proof.Machine.execPopSreg sr s
  | .xchgRmReg lock op1 op2 => Sys2Proof.Machine.execXchgRmReg lock op1 op2 s
  | .xchgAccReg r => Sys2Proof.Machine.execXchgAccReg r s
  | .inFixed w port => Sys2Proof.Machine.execInFixed w port s
  | .inVar w => Sys2Proof.Machine.execInVar w s
  | .outFixed w port => Sys2Proof.Machine.execOutFixed w port s
  | .outVar w => Sys2Proof.Machine.execOutVar w s
  | .xlat => Sys2Proof.Machine.execXlat s
  | .lea r ea => Sys2Proof.Machine.execLea r ea s
  | .lds r ea => Sys2Proof.Machine.execLds r ea s
  | .les r ea => Sys2Proof.Machine.execLes r ea s
  | .lahf => Sys2Proof.Machine.execLahf s
  | .sahf => Sys2Proof.Machine.execSahf s
  | .pushf => Sys2Proof.Machine.execPushf s
  | .popf => Sys2Proof.Machine.execPopf s
  -- arithmetic
  | .addRmReg lock op1 op2 => Sys2Proof.Machine.execAddRmReg lock op1 op2 s
  | .addRmImm lock op1 imm => Sys2Proof.Machine.execAddRmImm lock op1 imm s
  | .addAccImm imm => Sys2Proof.Machine.execAddAccImm imm s
  | .adcRmReg lock op1 op2 => Sys2Proof.Machine.execAdcRmReg lock op1 op2 s
  | .adcRmImm lock op1 imm => Sys2Proof.Machine.execAdcRmImm lock op1 imm s
  | .adcAccImm imm => Sys2Proof.Machine.execAdcAccImm imm s
  | .incRm lock op => Sys2Proof.Machine.execIncRm lock op s
  | .incReg r => Sys2Proof.Machine.execIncReg r s
  | .aaa => Sys2Proof.Machine.execAaa s
  | .daa => Sys2Proof.Machine.execDaa s
  | .subRmReg lock op1 op2 => Sys2Proof.Machine.execSubRmReg lock op1 op2 s
  | .subRmImm lock op1 imm => Sys2Proof.Machine.execSubRmImm lock op1 imm s
  | .subAccImm imm => Sys2Proof.Machine.execSubAccImm imm s
  | .sbbRmReg lock op1 op2 => Sys2Proof.Machine.execSbbRmReg lock op1 op2 s
  | .sbbRmImm lock op1 imm => Sys2Proof.Machine.execSbbRmImm lock op1 imm s
  | .sbbAccImm imm => Sys2Proof.Machine.execSbbAccImm imm s
  | .decRm lock op => Sys2Proof.Machine.execDecRm lock op s
  | .decReg r => Sys2Proof.Machine.execDecReg r s
  | .neg lock op => Sys2Proof.Machine.execNeg lock op s
  | .cmpRmReg op1 op2 => Sys2Proof.Machine.execCmpRmReg op1 op2 s
  | .cmpRmImm op1 imm => Sys2Proof.Machine.execCmpRmImm op1 imm s
  | .cmpAccImm imm => Sys2Proof.Machine.execCmpAccImm imm s
  | .aas => Sys2Proof.Machine.execAas s
  | .das => Sys2Proof.Machine.execDas s
  | .mul op => Sys2Proof.Machine.execMul op s
  | .imul op => Sys2Proof.Machine.execImul op s
  | .aam => Sys2Proof.Machine.execAam s
  | .div op => Sys2Proof.Machine.execDiv op s
  | .idiv op => Sys2Proof.Machine.execIdiv op s
  | .aad => Sys2Proof.Machine.execAad s
  | .cbw => Sys2Proof.Machine.execCbw s
  | .cwd => Sys2Proof.Machine.execCwd s
  -- logic and shifts
  | .not lock op => Sys2Proof.Machine.execNot lock op s
  | .shl op count => Sys2Proof.Machine.execShl op count s
  | .shr op count => Sys2Proof.Machine.execShr op count s
  | .sar op count => Sys2Proof.Machine.execSar op count s
  | .rol op count => Sys2Proof.Machine.execRol op count s
  | .ror op count => Sys2Proof.Machine.execRor op count s
  | .rcl op count => Sys2Proof.Machine.execRcl op count s
  | .rcr op count => Sys2Proof.Machine.execRcr op count s
  | .andRmReg lock op1 op2 => Sys2Proof.Machine.execAndRmReg lock op1 op2 s
  | .andRmImm lock op1 imm => Sys2Proof.Machine.execAndRmImm lock op1 imm s
  | .andAccImm imm => Sys2Proof.Machine.execAndAccImm imm s
  | .testRmReg op1 op2 => Sys2Proof.Machine.execTestRmReg op1 op2 s
  | .testRmImm op1 imm => Sys2Proof.Machine.execTestRmImm op1 imm s
  | .testAccImm imm => Sys2Proof.Machine.execTestAccImm imm s
  | .orRmReg lock op1 op2 => Sys2Proof.Machine.execOrRmReg lock op1 op2 s
  | .orRmImm lock op1 imm => Sys2Proof.Machine.execOrRmImm lock op1 imm s
  | .orAccImm imm => Sys2Proof.Machine.execOrAccImm imm s
  | .xorRmReg lock op1 op2 => Sys2Proof.Machine.execXorRmReg lock op1 op2 s
  | .xorRmImm lock op1 imm => Sys2Proof.Machine.execXorRmImm lock op1 imm s
  | .xorAccImm imm => Sys2Proof.Machine.execXorAccImm imm s
  -- strings
  | .movs w r => Sys2Proof.Machine.execMovs w r s
  | .cmps w r => Sys2Proof.Machine.execCmps w r s
  | .scas w r => Sys2Proof.Machine.execScas w r s
  | .lods w r => Sys2Proof.Machine.execLods w r s
  | .stos w r => Sys2Proof.Machine.execStos w r s
  -- control transfer
  | .callNear disp => Sys2Proof.Machine.execCallNear disp s
  | .callNearInd op => Sys2Proof.Machine.execCallNearInd op s
  | .callFar seg off => Sys2Proof.Machine.execCallFar seg off s
  | .callFarInd ea => Sys2Proof.Machine.execCallFarInd ea s
  | .jmpNear disp => Sys2Proof.Machine.execJmpNear disp s
  | .jmpShort disp => Sys2Proof.Machine.execJmpShort disp s
  | .jmpNearInd op => Sys2Proof.Machine.execJmpNearInd op s
  | .jmpFar seg off => Sys2Proof.Machine.execJmpFar seg off s
  | .jmpFarInd ea => Sys2Proof.Machine.execJmpFarInd ea s
  | .retNear => Sys2Proof.Machine.execRetNear s
  | .retNearImm n => Sys2Proof.Machine.execRetNearImm n s
  | .retFar => Sys2Proof.Machine.execRetFar s
  | .retFarImm n => Sys2Proof.Machine.execRetFarImm n s
  | .je disp => Sys2Proof.Machine.execJe disp s
  | .jl disp => Sys2Proof.Machine.execJl disp s
  | .jle disp => Sys2Proof.Machine.execJle disp s
  | .jb disp => Sys2Proof.Machine.execJb disp s
  | .jbe disp => Sys2Proof.Machine.execJbe disp s
  | .jp disp => Sys2Proof.Machine.execJp disp s
  | .jo disp => Sys2Proof.Machine.execJo disp s
  | .js disp => Sys2Proof.Machine.execJs disp s
  | .jne disp => Sys2Proof.Machine.execJne disp s
  | .jnl disp => Sys2Proof.Machine.execJnl disp s
  | .jnle disp => Sys2Proof.Machine.execJnle disp s
  | .jnb disp => Sys2Proof.Machine.execJnb disp s
  | .jnbe disp => Sys2Proof.Machine.execJnbe disp s
  | .jnp disp => Sys2Proof.Machine.execJnp disp s
  | .jno disp => Sys2Proof.Machine.execJno disp s
  | .jns disp => Sys2Proof.Machine.execJns disp s
  | .loop disp => Sys2Proof.Machine.execLoop disp s
  | .loopz disp => Sys2Proof.Machine.execLoopz disp s
  | .loopnz disp => Sys2Proof.Machine.execLoopnz disp s
  | .jcxz disp => Sys2Proof.Machine.execJcxz disp s
  | .int type => Sys2Proof.Machine.execInt type s
  | .int3 => Sys2Proof.Machine.execInt3 s
  | .into => Sys2Proof.Machine.execInto s
  | .iret => Sys2Proof.Machine.execIret s
  -- processor control
  | .clc => Sys2Proof.Machine.execClc s
  | .cmc => Sys2Proof.Machine.execCmc s
  | .stc => Sys2Proof.Machine.execStc s
  | .cld => Sys2Proof.Machine.execCld s
  | .std => Sys2Proof.Machine.execStd s
  | .cli => Sys2Proof.Machine.execCli s
  | .sti => Sys2Proof.Machine.execSti s
  | .hlt => Sys2Proof.Machine.execHlt s
  | .wait => Sys2Proof.Machine.execWait s
  | .esc opcode op => Sys2Proof.Machine.execEsc opcode op s
  | .unknown b => Sys2Proof.Machine.execUnknown b s
  -- rows that yield no record of their own
  | .reserved b0 b1 => Sys2Proof.Machine.execReserved b0 b1 s
  | .seg sr body => Sys2Proof.Machine.execSeg sr body s
  | .lock body => Sys2Proof.Machine.execLock body s
  | .repne body => Sys2Proof.Machine.execRepne body s
  | .rep body => Sys2Proof.Machine.execRep body s

end Sys2Proof.Machine
end

