-- ==== Sys2Proof/Machine/Fetch.lean ====
section
/-! DEFINITION. Fetching an instruction (spec 10_state R34 to R36) and placing one where the next step fetches it. -/

namespace Sys2Proof.Machine

/-- Fetch: `map[ip]`, by `ip` alone (10_state R35). The map is recomputed from the program store, which nothing
writes (R33; log 6). A sweep that raises leaves no map (60_exceptions R433); `none` is the halt condition (R36). -/
def fetch (s : State) : Except Fault (Option Instr) :=
  match sweep s.cfg.lockable s.program with
  | .error (e, start) => .error (.malformedEncoding e start)
  | .ok m => .ok (mapLookup m s.ip.toNat)

/-- The bytes of the one instruction a byte list begins with; all of them where none decodes. -/
def firstInstrBytes (lk : Lockable) (bs : List Byte) : List Byte :=
  match decodeOne lk bs with
  | .ok (_, rest) => bs.take (bs.length - rest.length)
  | .error _ => bs

/-- A program store whose instruction at offset `off` is the one `bs` begins with, the bytes before it being
one-byte instructions (`90`, 30_encoding R129), so that the sweep reaches it (log 2). -/
def programAt (lk : Lockable) (off : Nat) (bs : List Byte) : List Byte :=
  List.replicate off 0x90 ++ firstInstrBytes lk bs

end Sys2Proof.Machine
end

