-- ==== Sys2Proof/Machine/Step.lean ====
section
/-! DEFINITION. One step of the machine (spec 10_state R34 to R37, 60_exceptions R430). -/

namespace Sys2Proof.Machine

/-- One step: fetch, then the meaning of the record. A decode error of the program store ends the run (60_exceptions
R433); an unmapped `ip` halts the block (10_state R36); a halted or stuck block never changes again (60_exceptions
R430). -/
def step (s : State) : Host.Outcome State Fault Refusal :=
  match s.condition with
  | .halted => .next s
  | .stuck => .next s
  | .running =>
    match fetch s with
    | .error f => raise f
    | .ok none => .next { s with condition := .halted }
    | .ok (some i) => exec i s

/-- The state whose next step runs the instruction of a table word: it is placed in the program store at `ip`, and
the block is running (log 2). -/
def State.withFetchWord (s : State) (nbits w : Nat) : State :=
  { s with program := programAt s.cfg.lockable s.ip.toNat (tableBytes nbits w), condition := .running }

end Sys2Proof.Machine
end

