-- ==== Sys2Proof/Safety.lean ====
section
/-! DEFINITION. The terms claims about the machine are stated in: its invariant, when an access is inside the data
memory, what an operand holds, and what a step leaves unchanged. -/

namespace Sys2Proof.Machine

/-- The invariant of the machine: the memory is in its canonical form (20_memory R62), and the program store is
within its bound (10_state R33). -/
def State.Inv (s : State) : Prop := s.mem.wf = true ∧ s.program.length ≤ 65536

/-- `exec i s` answers a next state, and `P` holds of it. -/
def ExecNext (i : Instr) (s : State) (P : State → Prop) : Prop := ∃ t, exec i s = .next t ∧ P t

/-! ### Accesses and operands -/

/-- The access stays inside the data memory (60_exceptions R434). -/
def accessOk : Width → Nat → Bool
  | .byte, a => decide (a < memSize)
  | .word, a => decide (a + 1 < memSize)

/-- Reading or writing the operand raises nothing. -/
def operandOk (s : State) (w : Width) : Operand → Bool
  | .reg8 _ => true
  | .reg16 _ => true
  | .mem ea => accessOk w (eaPhys s ea)

/-- Both words of a far pointer are inside the data memory (41_operands_addressing R189). -/
def farOk (s : State) (ea : Ea) : Bool := decide (eaPhys s ea + 3 < memSize)

/-- The first `k` pushes of a step raise nothing (43_data_transfer R247). -/
def pushOk (s : State) (k : Nat) : Bool := (List.range k).all fun j => accessOk .word (pushAddr s (j + 1))

/-- The first `k` pops of a step raise nothing (43_data_transfer R247). -/
def popOk (s : State) (k : Nat) : Bool := (List.range k).all fun j => accessOk .word (popAddr s (j + 1))

/-- The little-endian word stored at an address (20_memory R64). -/
def wordAt (s : State) (a : Nat) : Nat := (s.byteAt a).toNat + 256 * (s.byteAt (a + 1)).toNat

/-- The value stored at an address, at a width. -/
def valueAt (s : State) : Width → Nat → Nat
  | .byte, a => (s.byteAt a).toNat
  | .word, a => wordAt s a

/-- The unsigned value an operand holds (41_operands_addressing R181). -/
def operandVal (s : State) (w : Width) : Operand → Nat
  | .reg8 r => (s.reg8 r).toNat
  | .reg16 r => (s.reg r).toNat
  | .mem ea => valueAt s w (eaPhys s ea)

/-- In `t` the bytes at an address are those of `v`, low byte first (20_memory R66). -/
def BytesHold (t : State) (w : Width) (a v : Nat) : Prop :=
  match w with
  | .byte => t.byteAt a = BitVec.ofNat 8 v
  | .word => t.byteAt a = BitVec.ofNat 8 v ∧ t.byteAt (a + 1) = BitVec.ofNat 8 (v / 256)

/-- In `t` the operand holds `v mod M(w)`; the address of a memory operand is the one it has in `s`, the state the
step read (41_operands_addressing R182). -/
def OperandHolds (s t : State) (w : Width) (op : Operand) (v : Nat) : Prop :=
  match op with
  | .reg8 r => t.reg8 r = BitVec.ofNat 8 v
  | .reg16 r => t.reg r = BitVec.ofNat 16 v
  | .mem ea => BytesHold t w (eaPhys s ea) v

/-! ### Frames -/

/-- What a step may change beside `ip`: general registers, byte halves of general registers, segment registers,
flags, bytes of data memory. -/
structure Touched where
  regs   : List Reg16
  halves : List Reg8
  segs   : List Sreg
  flags  : List Flag
  bytes  : List Nat
deriving DecidableEq, Repr

/-- Nothing beside `ip`. -/
def touchNothing : Touched := Touched.mk [] [] [] [] []

/-- Either of two. -/
def Touched.add (x y : Touched) : Touched :=
  Touched.mk (x.regs ++ y.regs) (x.halves ++ y.halves) (x.segs ++ y.segs) (x.flags ++ y.flags) (x.bytes ++ y.bytes)

/-- The bytes of an access. -/
def bytesOf : Width → Nat → List Nat
  | .byte, a => [a]
  | .word, a => [a, a + 1]

/-- General registers. -/
def touchRegs (rs : List Reg16) : Touched := { touchNothing with regs := rs }

/-- Flags. -/
def touchFlags (fs : List Flag) : Touched := { touchNothing with flags := fs }

/-- Segment registers. -/
def touchSegs (rs : List Sreg) : Touched := { touchNothing with segs := rs }

/-- Byte halves of general registers. -/
def touchHalves (rs : List Reg8) : Touched := { touchNothing with halves := rs }

/-- Bytes of data memory. -/
def touchBytes (bs : List Nat) : Touched := { touchNothing with bytes := bs }

/-- What a write of an operand changes: the register, the byte half, or the bytes at the address it has in `s`. -/
def touchOperand (s : State) (w : Width) : Operand → Touched
  | .reg8 r => touchHalves [r]
  | .reg16 r => touchRegs [r]
  | .mem ea => touchBytes (bytesOf w (eaPhys s ea))

/-- The flags that change only when undefined flags are drawn (42_alu_flags R208). -/
def undefTouched (s : State) (fs : List Flag) : List Flag :=
  match s.cfg.undefFlags with
  | .unchanged => []
  | .draw => fs

/-- Everything outside `x` is as before: every general register and byte half, every segment register, every flag,
every byte of data memory, and the parts of the machine no instruction writes. `ip` may change. -/
def Frame (s t : State) (x : Touched) : Prop :=
  (∀ r, r ∉ x.regs → (∀ h ∈ x.halves, h.parent ≠ r) → t.reg r = s.reg r) ∧
  (∀ q : Reg8, q ∉ x.halves → q.parent ∉ x.regs → t.reg8 q = s.reg8 q) ∧
  (∀ r, r ∉ x.segs → t.seg r = s.seg r) ∧
  (∀ f, f ∉ x.flags → t.flag f = s.flag f) ∧
  (∀ a, a ∉ x.bytes → t.byteAt a = s.byteAt a) ∧
  t.program = s.program ∧ t.cfg = s.cfg ∧ t.condition = s.condition

/-! ### Flags, in words of arithmetic -/

/-- The signed value fits the width (00_scope R11). -/
def FitsSigned (w : Width) (n : Int) : Prop := -((modulus w / 2 : Nat) : Int) ≤ n ∧ n < ((modulus w / 2 : Nat) : Int)

/-- The number of 1 bits in the low byte is even (42_alu_flags R200). -/
def evenOnes (r : Nat) : Prop := ((List.range 8).filter fun k => r.testBit k).length % 2 = 0

/-- SF, ZF and PF are those of the result `r` (42_alu_flags R201). -/
def ResultFlags (t : State) (w : Width) (r : Nat) : Prop :=
  (t.flag .SF = true ↔ modulus w / 2 ≤ r) ∧ (t.flag .ZF = true ↔ r = 0) ∧ (t.flag .PF = true ↔ evenOnes r)

/-- The six arithmetic flags (44_arithmetic R280). -/
def arithFlags : List Flag := [.CF, .PF, .AF, .ZF, .SF, .OF]

end Sys2Proof.Machine
end

