-- ==== Sys2Proof/Certificates/Slice0/Obligations.lean ====
section
/-! DEFINITION. The statements for the provers. Each docstring says which rule of the spec it formalises. In the
statements about instructions, `i ∈ SIMULATED` is written `k ∈ s.cfg.simulated`, the parameter `LOCKABLE` of the
decoder is `lk` or the state's, and the premise `s.mem.wf = true` is the memory part of the invariant
`StepKeepsInvariant` states. -/

section
open Sys2Proof Sys2Proof.Machine

/-! ### Reading bytes -/

/-- The bytes `bs` are read as the record `i`, whatever bytes follow and whatever `LOCKABLE` is. -/
def Sys2Proof.Machine.Reads (bs : List Byte) (i : Instr) : Prop :=
  ∀ (lk : Lockable) (rest : List Byte), decodeOne lk (bs ++ rest) = .ok (i, rest)

/-- An r/m operand as the body's own bytes give it: of the given size, with no segment override. -/
def Sys2Proof.Machine.Bare (w : Width) (op : Operand) : Prop :=
  op.isAt w = true ∧ ∀ ea, op = .mem ea → ea.seg = none

/-- The register catalog (30_encoding R97). -/
def Sys2Proof.Machine.catalog (w : Width) (n : BitVec 3) : Operand :=
  match w with
  | .byte => ([.al, .cl, .dl, .bl, .ah, .ch, .dh, .bh].map Operand.reg8).getD n.toNat (.reg8 .al)
  | .word => ([.ax, .cx, .dx, .bx, .sp, .bp, .si, .di].map Operand.reg16).getD n.toNat (.reg16 .ax)

/-- `MODRM_W`: the `reg` field is the second operand (30_encoding R93). -/
def Sys2Proof.Machine.ReadsW (base : Byte) (mk : Operand → Operand → Instr) : Prop :=
  ∀ (w : Width) (reg : BitVec 3) (op : Operand), Bare w op →
    Reads ((base + w.bit) :: encodeRm reg op) (mk op (catalog w reg))

/-- `MODRM_DW`: `xxxx_xxdw`, the `reg` field second where `d = 0` and first where `d = 1` (30_encoding R91, R93). -/
def Sys2Proof.Machine.ReadsDW (base : Byte) (mk : Operand → Operand → Instr) : Prop :=
  ReadsW base mk ∧ ReadsW (base + 2) fun op r => mk r op

/-- `MODRM_EXT_W`: an opcode byte and its extension, at both widths (30_encoding R93). -/
def Sys2Proof.Machine.ReadsExt (base : Byte) (ext : BitVec 3) (mk : Operand → Instr) : Prop :=
  ∀ (w : Width) (op : Operand), Bare w op → Reads ((base + w.bit) :: encodeRm ext op) (mk op)

/-- `MODRM_EXT`: a word operand alone (30_encoding R93). -/
def Sys2Proof.Machine.ReadsWordRm (b : Byte) (ext : BitVec 3) (mk : Operand → Instr) : Prop :=
  ∀ op : Operand, Bare .word op → Reads (b :: encodeRm ext op) (mk op)

/-- A memory operand of no size (30_encoding R128 (h)). -/
def Sys2Proof.Machine.ReadsMemOnly (b : Byte) (ext : BitVec 3) (mk : Ea → Instr) : Prop :=
  ∀ ea : Ea, ea.isNull = true → ea.seg = none → Reads (b :: encodeEa ext ea) (mk ea)

/-- An r/m operand and an immediate of its width (30_encoding R93). -/
def Sys2Proof.Machine.ReadsExtImm (base : Byte) (ext : BitVec 3) (mk : Operand → Imm → Instr) : Prop :=
  ∀ (op : Operand) (b : Byte) (v : Word),
    (Bare .byte op → Reads (base :: encodeRm ext op ++ [b]) (mk op (.b b))) ∧
    (Bare .word op → Reads ((base + 1) :: encodeRm ext op ++ [loByte v, hiByte v]) (mk op (.w v)))

/-- The arithmetic rows of the immediate group: `80`, `81`, and `82`, `83` with a byte immediate (30_encoding R91,
R122). -/
def Sys2Proof.Machine.ReadsImmGroup (ext : BitVec 3) (mk : Operand → Imm → Instr) : Prop :=
  ReadsExtImm 0x80 ext mk ∧ ∀ (op : Operand) (b : Byte),
    (Bare .byte op → Reads (0x82 :: encodeRm ext op ++ [b]) (mk op (.b b))) ∧
    (Bare .word op → Reads (0x83 :: encodeRm ext op ++ [b]) (mk op (.b b)))

/-- `ACC_IMM` (30_encoding R93). -/
def Sys2Proof.Machine.ReadsAcc (base : Byte) (mk : Imm → Instr) : Prop :=
  ∀ (b : Byte) (v : Word), Reads [base, b] (mk (.b b)) ∧ Reads [base + 1, loByte v, hiByte v] (mk (.w v))

/-- Eight opcode bytes whose low bits are a 16-bit register (30_encoding R93, R97). -/
def Sys2Proof.Machine.ReadsReg16 (base : Byte) (mk : Reg16 → Instr) : Prop :=
  ∀ (n : BitVec 3) (r : Reg16), catalog .word n = .reg16 r → Reads [base + n.setWidth 8] (mk r)

/-- The segment-register catalog (30_encoding R98). -/
def Sys2Proof.Machine.segmentCatalog : List (BitVec 2 × Sreg) := [(0, .es), (1, .cs), (2, .ss), (3, .ds)]

/-! ### Decoder and encoder -/

/-- 30_encoding, 40_decoder_prefixes R140: decoding the bytes of a record gives the record and the bytes after it,
with every operand at every value the encoding admits. -/
def Obligations.DecodeOfEncodeIsTheRecord : Prop :=
  ∀ (lk : Lockable) (i : Instr) (rest : List Byte), WellFormed lk i = true →
    decodeOne lk (encode i ++ rest) = .ok (i, rest)

/-- 30_encoding R94, R104: whatever bytes decode, the record meets the record invariants, and `byteLength` is
exactly the number of bytes consumed, prefixes included. So the `ip` the statements below call `nextIp`, which is
`ip + byteLength` modulo 65536 of every record (10_state R29), is the place of the byte after the record. -/
def Obligations.DecodedRecordIsWellFormed : Prop :=
  (∀ (lk : Lockable) (bs rest : List Byte) (i : Instr), decodeOne lk bs = .ok (i, rest) →
    WellFormed lk i = true ∧ 1 ≤ i.byteLength ∧ i.byteLength ≤ bs.length ∧ rest = bs.drop i.byteLength) ∧
  ∀ (s : State) (i : Instr), nextIp i s = s.ip + BitVec.ofNat 16 i.byteLength ∧
    (nextIp i s).toNat = (s.ip.toNat + i.byteLength) % 65536

/-- 60_exceptions R432: every proper beginning of a record's bytes raises `Truncated`. -/
def Obligations.ProperBeginningIsTruncated : Prop :=
  ∀ (lk : Lockable) (i : Instr) (n : Nat), WellFormed lk i = true → n < (encode i).length →
    decodeOne lk ((encode i).take n) = .error .truncated

/-- 10_state R34: the records of a sweep tile the program: each stands at the sum of the lengths of the records before
it, is what decoding at that offset gives, and the lengths of all of them add up to the length of the program. -/
def Obligations.SweepTilesTheProgram : Prop :=
  ∀ (lk : Lockable) (p : List Byte) (m : List (Nat × Instr)), sweep lk p = .ok m →
    (m.map fun e => e.2.byteLength).sum = p.length ∧
    ∀ (k : Nat) (e : Nat × Instr), m[k]? = some e →
      e.1 = ((m.take k).map fun e => e.2.byteLength).sum ∧ ∃ rest, decodeOne lk (p.drop e.1) = .ok (e.2, rest)

/-- 10_state R34: the sweep of a program laid out from records is the list of those records, in order, each under the
sum of the lengths before it. -/
def Obligations.SweepOfLaidOutRecords : Prop :=
  ∀ (lk : Lockable) (is : List Instr), (∀ i ∈ is, WellFormed lk i = true) →
    sweep lk (is.flatMap encode) =
      .ok (is.zipIdx.map fun e => (((is.take e.2).map Instr.byteLength).sum, e.1))

/-- 30_encoding R128 (a) to (h), written as the rule writes it: the reason a second byte of the opcode `b0` raises. -/
def Sys2Proof.Machine.reservedBy (b0 b1 : Byte) : Option Malformed :=
  let reg := (ModRM.reg b1).toNat
  if (b0 = 0x8F ∨ b0 = 0xC6 ∨ b0 = 0xC7) ∧ reg ≠ 0 then some .reservedEncoding
  else if (b0 = 0x82 ∨ b0 = 0x83) ∧ (reg = 1 ∨ reg = 4 ∨ reg = 6) then some .reservedEncoding
  else if (b0 = 0xD0 ∨ b0 = 0xD1 ∨ b0 = 0xD2 ∨ b0 = 0xD3) ∧ reg = 6 then some .reservedEncoding
  else if (b0 = 0xF6 ∨ b0 = 0xF7) ∧ reg = 1 then some .reservedEncoding
  else if (b0 = 0xFE ∧ 2 ≤ reg) ∨ (b0 = 0xFF ∧ reg = 7) then some .reservedEncoding
  else if (b0 = 0x8C ∨ b0 = 0x8E) ∧ 4 ≤ reg then some .reservedEncoding
  else if (b0 = 0xD4 ∨ b0 = 0xD5) ∧ b1 ≠ 0x0A then some .reservedEncoding
  else if (b0 = 0x8D ∨ b0 = 0xC4 ∨ b0 = 0xC5 ∨ b0 = 0xFF ∧ (reg = 3 ∨ reg = 5)) ∧ ModRM.mod b1 = 3 then
    some .registerWhereMemoryRequired
  else none

/-- 30_encoding R128, 40_decoder_prefixes R159: the reserved sub-encodings raise their reason whatever follows, and no
other pair of bytes raises one of these two reasons. That a reserved row has a meaning, this decode error reported at
`ip`, is the model's choice (log 7). -/
def Obligations.ReservedEncodingsAreRejected : Prop :=
  ∀ (lk : Lockable) (b0 b1 : Byte) (rest : List Byte) (s : State),
    (∀ e, reservedBy b0 b1 = some e →
      decodeOne lk (b0 :: b1 :: rest) = .error e ∧
      exec (.reserved b0 b1) s = .fault (.malformedEncoding e s.ip.toNat)) ∧
    (reservedBy b0 b1 = none → (∀ s', b0 ≠ Sreg.overrideByte s') → b0 ≠ 0xF0 → b0 ≠ 0xF2 → b0 ≠ 0xF3 →
      decodeOne lk (b0 :: b1 :: rest) ≠ .error .reservedEncoding ∧
      decodeOne lk (b0 :: b1 :: rest) ≠ .error .registerWhereMemoryRequired)

/-- The 23 values of 30_encoding R127. -/
def Sys2Proof.Machine.notUsedBytes : List Byte :=
  [0x0F, 0x60, 0x61, 0x62, 0x63, 0x64, 0x65, 0x66, 0x67, 0x68, 0x69, 0x6A, 0x6B, 0x6C, 0x6D, 0x6E, 0x6F] ++
  [0xC0, 0xC1, 0xC8, 0xC9, 0xD6, 0xF1]

/-- 30_encoding R127, 40_decoder_prefixes R158: the 23 not-used first bytes decode to the unknown marker of length 1
whatever follows, and no other bytes do. -/
def Obligations.NotUsedBytesAreTheUnknownMarker : Prop :=
  (∀ b ∈ notUsedBytes, Reads [b] (.unknown b) ∧ (Instr.unknown b).byteLength = 1) ∧
  (∀ (lk : Lockable) (bs rest : List Byte) (b : Byte), decodeOne lk bs = .ok (.unknown b, rest) →
    b ∈ notUsedBytes ∧ bs = b :: rest)

/-- 40_decoder_prefixes R142, R143, R144, R146: a second prefix byte of a class already pending raises
`PrefixAlreadySet`, before the body is looked at. -/
def Obligations.SecondPrefixOfAClassIsRejected : Prop :=
  ∀ (lk : Lockable) (c : Ctx) (rest : List Byte),
    (∀ s : Sreg, c.seg ≠ none → decodeFrom lk c (s.overrideByte :: rest) = .error .prefixAlreadySet) ∧
    (c.lock = true → decodeFrom lk c (0xF0 :: rest) = .error .prefixAlreadySet) ∧
    (c.rep ≠ .none → decodeFrom lk c (0xF2 :: rest) = .error .prefixAlreadySet ∧
      decodeFrom lk c (0xF3 :: rest) = .error .prefixAlreadySet)

/-- The 18 kinds of 40_decoder_prefixes R153 (b), each without its lock and with it, for a destination `op1`. -/
def Sys2Proof.Machine.lockRows (op1 op2 : Operand) (imm : Imm) : List (Instr × Instr) :=
  [(.addRmReg false op1 op2, .addRmReg true op1 op2), (.adcRmReg false op1 op2, .adcRmReg true op1 op2),
   (.subRmReg false op1 op2, .subRmReg true op1 op2), (.sbbRmReg false op1 op2, .sbbRmReg true op1 op2),
   (.andRmReg false op1 op2, .andRmReg true op1 op2), (.orRmReg false op1 op2, .orRmReg true op1 op2),
   (.xorRmReg false op1 op2, .xorRmReg true op1 op2)] ++
  [(.addRmImm false op1 imm, .addRmImm true op1 imm), (.adcRmImm false op1 imm, .adcRmImm true op1 imm),
   (.subRmImm false op1 imm, .subRmImm true op1 imm), (.sbbRmImm false op1 imm, .sbbRmImm true op1 imm),
   (.andRmImm false op1 imm, .andRmImm true op1 imm), (.orRmImm false op1 imm, .orRmImm true op1 imm),
   (.xorRmImm false op1 imm, .xorRmImm true op1 imm)] ++
  [(.incRm false op1, .incRm true op1), (.decRm false op1, .decRm true op1), (.neg false op1, .neg true op1),
   (.not false op1, .not true op1)]

/-- 40_decoder_prefixes R147, R149, R151, R153: a segment override before a record with no memory operand, a lock
before a kind that does not consume one, and a repeat before a kind that is not a string, raise `UnconsumedPrefix`; a
lock before a record outside `LOCKABLE` whose kind consumes one raises `LockNotPermitted`, before a record that
satisfies `LOCKABLE` it decodes to the locked record. All this for every value of the parameter `LOCKABLE` (held as
plain data, log 8); with its default, an exchange may always be locked and the 18 other kinds with a memory
destination. The 19 kinds are the ones that consume a lock. -/
def Obligations.PrefixesAreCheckedAgainstTheBody : Prop :=
  (∀ (lk : Lockable) (i : Instr) (rest : List Byte), WellFormed lk i = true →
    (∀ s : Sreg, i.mem? = none → decodeOne lk (s.overrideByte :: encode i ++ rest) = .error .unconsumedPrefix) ∧
    (i.consumeLock lk = none → decodeOne lk (0xF0 :: encode i ++ rest) = .error .unconsumedPrefix) ∧
    (i.consumeRep .rep = none → decodeOne lk (0xF3 :: encode i ++ rest) = .error .unconsumedPrefix ∧
      decodeOne lk (0xF2 :: encode i ++ rest) = .error .unconsumedPrefix) ∧
    (∀ j, i.isLocked = false → i.consumeLock lk = some (false, j) →
      decodeOne lk (0xF0 :: encode i ++ rest) = .error .lockNotPermitted) ∧
    (∀ j, i.isLocked = false → i.consumeLock lk = some (true, j) →
      decodeOne lk (0xF0 :: encode i ++ rest) = .ok (j, rest))) ∧
  (∀ (op1 op2 : Operand) (imm : Imm),
    (Instr.xchgRmReg false op1 op2).consumeLock .default = some (true, .xchgRmReg true op1 op2) ∧
    ∀ e ∈ lockRows op1 op2 imm, e.1.consumeLock .default = some (op1.isMem, e.2)) ∧
  ∀ (lk : Lockable) (i : Instr), i.consumeLock lk ≠ none →
    ∃ (l : Bool) (op1 op2 : Operand) (imm : Imm),
      i = .xchgRmReg l op1 op2 ∨ ∃ e ∈ lockRows op1 op2 imm, i = e.1 ∨ i = e.2

/-- 40_decoder_prefixes R163 to R166 and spec examples: a few words read from the spec's encodings. A sanity
statement. -/
def Obligations.WordsOfTheSpecDecode : Prop :=
  Reads [0x89, 0xD8] (.movRmReg (.reg16 .ax) (.reg16 .bx)) ∧
  Reads [0xB8, 0x05, 0x00] (.movRegImm (.reg16 .ax) (.w 5)) ∧
  Reads [0x05, 0xFF, 0xFF] (.addAccImm (.w 0xFFFF)) ∧
  Reads [0x83, 0xC3, 0xFE] (.addRmImm false (.reg16 .bx) (.b 0xFE)) ∧
  Reads [0x26, 0x8A, 0x07] (.movRmReg (.reg8 .al) (.mem ⟨.bx, .none, some .es, some .byte⟩)) ∧
  (∀ rest, decodeOne .default ([0xF0, 0x01, 0x07] ++ rest) =
    .ok (.addRmReg true (.mem ⟨.bx, .none, none, some .word⟩) (.reg16 .ax), rest)) ∧
  Reads [0xF3, 0xA4] (.movs .byte .rep)

/-- The effective-address catalog (30_encoding R96): the `rm` field, the category, the displacement sizes it has. -/
def Sys2Proof.Machine.eaCatalog : List (Nat × EaKind) :=
  [(0, .bxSi), (1, .bxDi), (2, .bpSi), (3, .bpDi), (4, .si), (5, .di), (6, .bp), (7, .bx)]

/-- 30_encoding R92, R95 to R98, R131: the bytes of an r/m operand: `mod`, `reg` and `rm` in their places of the ModRM
byte, the register catalogs, the effective-address catalog with its displacements, low byte first, and the four
override bytes. The statements of the families read their opcode bytes in front of these. And what a byte register of
the catalog is (10_state R21): reading it reads its half of the word register, writing it keeps the other half and
every other register; and what writing a word or a segment register is (R20, R23). The numbers the statements of the
families use are fixed here too: the values of an immediate and of its bytes (R99, 41_operands_addressing R184), the
widths of operands (R180), and what belongs to each width (00_scope R10, R11). -/
def Obligations.OperandBytesAreTheCatalogs : Prop :=
  (∀ (w : Width) (reg n : BitVec 3),
    encodeRm reg (catalog w n) = [BitVec.ofNat 8 (0xC0 + 8 * reg.toNat + n.toNat)]) ∧
  (∀ (reg : BitVec 3) (seg : Option Sreg) (size : Option Width) (b : Byte) (v : Word),
    (∀ e ∈ eaCatalog,
      (e.2 ≠ .bp → encodeEa reg ⟨e.2, .none, seg, size⟩ = [BitVec.ofNat 8 (8 * reg.toNat + e.1)]) ∧
      encodeEa reg ⟨e.2, .d8 b, seg, size⟩ = [BitVec.ofNat 8 (0x40 + 8 * reg.toNat + e.1), b] ∧
      encodeEa reg ⟨e.2, .d16 v, seg, size⟩ =
        [BitVec.ofNat 8 (0x80 + 8 * reg.toNat + e.1), loByte v, hiByte v]) ∧
    encodeEa reg ⟨.direct, .d16 v, seg, size⟩ = [BitVec.ofNat 8 (8 * reg.toNat + 6), loByte v, hiByte v]) ∧
  (∀ (w : Width) (reg : BitVec 3) (ea : Ea), ea.wf = true → ea.seg = none → ea.size = some w →
    ∀ e ∈ [((0x26 : Byte), Sreg.es), (0x2E, .cs), (0x36, .ss), (0x3E, .ds)],
      e.2.overrideByte = e.1 ∧
      Reads (e.1 :: (0x8A + w.bit) :: encodeEa reg ea) (.movRmReg (catalog w reg) (.mem { ea with seg := some e.2 }))) ∧
  (∀ (b : Byte) (v : Word), (Imm.b b).value = b.toInt ∧ (Imm.w v).value = v.toInt ∧
    (Imm.b b).width = .byte ∧ (Imm.w v).width = .word ∧
    v.toNat = (hiByte v).toNat * 256 + (loByte v).toNat ∧
    conv .byte b.toNat = b.toInt ∧ conv .word v.toNat = v.toInt ∧
    ∀ n : Int, (reduce .byte n : Int) = n % 256 ∧ (reduce .word n : Int) = n % 65536) ∧
  (modulus .byte = 256 ∧ modulus .word = 65536 ∧ msb .byte = 7 ∧ msb .word = 15 ∧ Width.byte.bit = 0 ∧
    Width.word.bit = 1 ∧ acc .byte = .reg8 .al ∧ acc .word = .reg16 .ax) ∧
  (∀ (op2 : Operand) (ea : Ea) (w : Width) (r : Reg8) (q : Reg16), (Operand.reg8 r).width = .byte ∧
    (Operand.reg16 q).width = .word ∧ (ea.size = some w → (Operand.mem ea).width = w) ∧
    pairWidth (.reg8 r) op2 = .byte ∧ pairWidth (.reg16 q) op2 = .word ∧ pairWidth (.mem ea) op2 = op2.width) ∧
  (∀ (s : State) (v : Word),
    (∀ r q, (s.setReg r v).reg q = if q = r then v else s.reg q) ∧
    (∀ r q, (s.setSeg r v).seg q = if q = r then v else s.seg q) ∧
    (∀ r, s.setReg r v = { s with regs := (s.setReg r v).regs }) ∧
    (∀ r, s.setSeg r v = { s with segs := (s.setSeg r v).segs }) ∧
    s.setIp v = { s with ip := v }) ∧
  ∀ (s : State) (v : Byte),
    ∀ e ∈ [(Reg8.al, Reg16.ax, 0), (.cl, .cx, 0), (.dl, .dx, 0), (.bl, .bx, 0), (.ah, .ax, 8), (.ch, .cx, 8),
        (.dh, .dx, 8), (.bh, .bx, 8)],
      e.1.parent = e.2.1 ∧ s.reg8 e.1 = (s.reg e.2.1).extractLsb' e.2.2 8 ∧
      ((s.setReg8 e.1 v).reg e.2.1).extractLsb' e.2.2 8 = v ∧
      ((s.setReg8 e.1 v).reg e.2.1).extractLsb' (8 - e.2.2) 8 = (s.reg e.2.1).extractLsb' (8 - e.2.2) 8 ∧
      (∀ r, r ≠ e.2.1 → (s.setReg8 e.1 v).reg r = s.reg r) ∧
      s.setReg8 e.1 v = { s with regs := (s.setReg8 e.1 v).regs }

/-! ### The machine -/

/-- 10_state R34, R35, R37: when the sweep of the program succeeds and files `i` under `ip`, a step of the running
block is `exec i`. Nothing is added around it: `exec` itself writes `ip`. -/
def Obligations.StepRunsTheDecodedInstruction : Prop :=
  ∀ (s : State) (m : List (Nat × Instr)) (i : Instr), s.condition = .running →
    sweep s.cfg.lockable s.program = .ok m → mapLookup m s.ip.toNat = some i → step s = exec i s

/-- 10_state R34, R35: in a program laid out from records, with `ip` at the start of one of them, a step of the
running block is `exec` of that record, whatever `cs` and data memory hold. -/
def Obligations.StepRunsTheRecordAtIp : Prop :=
  ∀ (s : State) (before after : List Instr) (i : Instr), s.condition = .running →
    (∀ j ∈ before ++ i :: after, WellFormed s.cfg.lockable j = true) →
    s.program = (before ++ i :: after).flatMap encode →
    s.ip.toNat = (before.map Instr.byteLength).sum → step s = exec i s

/-- 10_state R36, 60_exceptions R430, R433, R437: the ends of a run. A decode error of the program stops it with that
error before any step; an `ip` that is no key of the map halts the block; a halted or a stuck block never changes.
The spec's halted block makes no further step; that halting, and every step after it, answers a next state is the
model's choice (log 4). -/
def Obligations.EndsOfARun : Prop :=
  (∀ (s : State) (e : Malformed) (start : Nat), s.condition = .running →
    sweep s.cfg.lockable s.program = .error (e, start) → step s = .fault (.malformedEncoding e start)) ∧
  (∀ (s : State) (m : List (Nat × Instr)), s.condition = .running → sweep s.cfg.lockable s.program = .ok m →
    mapLookup m s.ip.toNat = none → step s = .next { s with condition := .halted }) ∧
  (∀ s : State, s.condition ≠ .running → step s = .next s)

/-- 20_memory R62, R77, 10_state R33: the invariant is kept by every step, from every state that meets it, and no
step changes the program store or the parameters. -/
def Obligations.StepKeepsInvariant : Prop :=
  ∀ s t : State, s.Inv → step s = .next t → t.Inv ∧ t.program = s.program ∧ t.cfg = s.cfg

/-- The invariant holds at reset and at the start of every run whose `INIT` memory is canonical and whose program is
within its bound (10_state R33, R47). -/
def Obligations.InvariantHoldsAtTheStart : Prop :=
  State.reset.Inv ∧ ∀ (init : State) (p : List Byte), init.mem.wf = true → p.length ≤ 65536 → (init.boot p).Inv

/-- 10_state R43 to R47, 70_reset_and_hazards R460, R461: every register 0, every flag false, every byte of memory 0
at reset, and `ip` forced to 0 whatever `INIT` holds. That the parameters stand in a field, with the defaults of
00_scope R8 at reset, is the model's choice (log 3): the values are R8's, and a kind is in the default `SIMULATED`
unless it is one of the eleven of 60_exceptions R438 or the marker. The empty program store and the counter of free
draws are the model's choice too (logs 2 and 5), and are not stated. -/
def Obligations.ResetValues : Prop :=
  (∀ r, State.reset.reg r = 0) ∧ (∀ r, State.reset.seg r = 0) ∧ (∀ f, State.reset.flag f = false) ∧
  State.reset.ip = 0 ∧ (∀ a, State.reset.byteAt a = 0) ∧ State.reset.cfg = Config.default ∧
  (Config.default.eaWrap16 = true ∧ Config.default.undefFlags = .unchanged ∧ Config.default.idivMin8 = -127 ∧
    Config.default.idivMin16 = -32767 ∧ Config.default.flagFill = 0xF002 ∧ Config.default.lockable = .default ∧
    ∀ k : Kind, k ∈ Config.default.simulated ↔ k ∉ [Kind.inFixed, .inVar, .outFixed, .outVar, .int, .int3, .into, .iret,
      .hlt, .wait, .esc, .unknown]) ∧
  ∀ (init : State) (p : List Byte), (init.boot p).ip = 0 ∧ (init.boot p).program = p ∧
    (init.boot p).regs = init.regs ∧ (init.boot p).segs = init.segs ∧ (init.boot p).flags = init.flags ∧
    (init.boot p).mem = init.mem

/-- 60_exceptions R437: a record whose kind is not in `SIMULATED` steps to the empty diff, for every state: nothing
changes, not even `ip`, and the block is stuck. So do IN, OUT, HLT, WAIT and the unknown marker in every state
(43_data_transfer R257 to R261, 48_processor_control R417, R418, R420; that this holds for the first six even when a
model puts them into `SIMULATED` is the model's choice, log 10). That stuck is a field of the state is log 4. With
the bytes of these kinds. -/
def Obligations.UnsimulatedKindIsStuck : Prop :=
  (∀ (s : State) (i : Instr) (k : Kind), recordKind i = some k → k ∉ s.cfg.simulated →
    stepDiff i s = .ok [] ∧ exec i s = .next { s with condition := .stuck }) ∧
  ∀ (s : State) (w : Width) (p b : Byte),
    (∀ i ∈ [Instr.inFixed w p, .inVar w, .outFixed w p, .outVar w, .hlt, .wait, .unknown b],
      exec i s = .next { s with condition := .stuck }) ∧
    Reads [0xE4 + w.bit, p] (.inFixed w p) ∧ Reads [0xEC + w.bit] (.inVar w) ∧
    Reads [0xE6 + w.bit, p] (.outFixed w p) ∧ Reads [0xEE + w.bit] (.outVar w) ∧
    Reads [0xF4] .hlt ∧ Reads [0x9B] .wait

/-- 40_decoder_prefixes R152: a locked record does exactly what the unlocked one does; only its length, and so `ip`,
differs by the lock byte (and outside `SIMULATED` not even that). -/
def Obligations.LockHasNoEffectOnTheStep : Prop :=
  ∀ (lk : Lockable) (s : State) (i j : Instr) (b : Bool) (k : Kind), i.consumeLock lk = some (b, j) →
    i.isLocked = false → recordKind i = some k →
    (∀ t, exec i s = .next t →
      exec j s = .next (if k ∈ s.cfg.simulated then { t with ip := t.ip + 1 } else t)) ∧
    (∀ f, exec i s = .fault f → exec j s = .fault f)

/-- The string instructions by kind: the record with a given repeat, and whether it compares. -/
def Sys2Proof.Machine.stringInstr (w : Width) (r : Rep) : List (Instr × Instr × Kind × Bool) :=
  [(.movs w .none, .movs w r, .movs, false), (.cmps w .none, .cmps w r, .cmps, true),
   (.scas w .none, .scas w r, .scas, true), (.lods w .none, .lods w r, .lods, false),
   (.stos w .none, .stos w r, .stos, false)]

/-- 40_decoder_prefixes R142 to R150: a prefix row runs the one record its bytes are folded into, whichever way round
a lock and an override stand; where the bytes do not decode it is their decode error, at `ip`; and in front of an
instruction that takes the prefix it completes: a lock on each kind that consumes one, where `LOCKABLE` allows the
record, an override on a load, a repeat on each byte string. That a prefix row is an instruction with a meaning of its
own is the model's choice (log 7). -/
def Obligations.PrefixRowRunsTheFoldedRecord : Prop :=
  (∀ (s : State) (i j : Instr), WellFormed s.cfg.lockable j = true →
    (∀ sr : Sreg, encode j = sr.overrideByte :: encode i → exec (.seg sr i) s = exec j s) ∧
    (encode j = 0xF0 :: encode i → exec (.lock i) s = exec j s) ∧
    (∀ sr : Sreg, encode j = 0xF0 :: sr.overrideByte :: encode i →
      exec (.seg sr (.lock i)) s = exec j s ∧ exec (.lock (.seg sr i)) s = exec j s) ∧
    (encode j = 0xF2 :: encode i → exec (.repne i) s = exec j s) ∧
    (encode j = 0xF3 :: encode i → exec (.rep i) s = exec j s)) ∧
  (∀ (s : State) (i j : Instr) (sr : Sreg) (rest : List Byte) (e : Malformed),
    ∀ x ∈ [(sr.overrideByte, Instr.seg sr i), (0xF0, .lock i), (0xF2, .repne i), (0xF3, .rep i)],
      (decodeOne s.cfg.lockable (x.1 :: encode i) = .ok (j, rest) → exec x.2 s = exec j s) ∧
      (decodeOne s.cfg.lockable (x.1 :: encode i) = .error e →
        exec x.2 s = .fault (.malformedEncoding e s.ip.toNat))) ∧
  (∀ (s : State) (op1 op2 : Operand) (imm : Imm) (k : Kind),
    ∀ e ∈ (Instr.xchgRmReg false op1 op2, Instr.xchgRmReg true op1 op2) :: lockRows op1 op2 imm,
      WellFormed s.cfg.lockable e.2 = true → recordKind e.1 = some k → k ∈ s.cfg.simulated →
      (∀ ea w, e.1.mem? = some ea → ea.size = some w → accessOk w (eaPhys s ea) = true) →
      ∃ t, exec (.lock e.1) s = .next t ∧ exec e.2 s = .next t) ∧
  (∀ (s : State) (sr : Sreg) (a : Word), .movAccMem ∈ s.cfg.simulated →
    exec (.seg sr (.movAccMem .byte ⟨.direct, .d16 a, none, some .byte⟩)) s =
      .next ((s.setIp (s.ip + 4)).setReg8 .al (s.byteAt (eaPhys s ⟨.direct, .d16 a, some sr, some .byte⟩)))) ∧
  (∀ (s : State) (sr : Sreg) (w : Width) (dst : Operand) (ea : Ea), ea.seg = none → ea.size = some w →
    WellFormed s.cfg.lockable (.movRmReg dst (.mem { ea with seg := some sr })) = true →
    .movRmReg ∈ s.cfg.simulated → accessOk w (eaPhys s { ea with seg := some sr }) = true →
    ∃ t, exec (.seg sr (.movRmReg dst (.mem ea))) s = .next t ∧
      exec (.movRmReg dst (.mem { ea with seg := some sr })) s = .next t) ∧
  ∀ s : State,
    (∀ e ∈ stringInstr .byte .rep, e.2.2.1 ∈ s.cfg.simulated →
      ∃ t, exec (.rep e.1) s = .next t ∧ exec e.2.1 s = .next t) ∧
    (∀ e ∈ stringInstr .byte .repne, e.2.2.1 ∈ s.cfg.simulated →
      ∃ t, exec (.repne e.1) s = .next t ∧ exec e.2.1 s = .next t)

/-! ### Data transfer -/

/-- A move: `dst` holds `v`, `ip` moves past the record, nothing else changes. -/
def Sys2Proof.Machine.Moves (i : Instr) (s : State) (w : Width) (dst : Operand) (v : Nat) : Prop :=
  ExecNext i s fun t => t.ip = nextIp i s ∧ OperandHolds s t w dst v ∧ Frame s t (touchOperand s w dst)

/-- 43_data_transfer R241 to R246, R248: MOV between registers, memory, immediates and segment registers, `cs` among
them; with their bytes. -/
def Obligations.MovResult : Prop :=
  (ReadsDW 0x88 .movRmReg ∧ ReadsExtImm 0xC6 0 .movRmImm ∧
    (∀ (n : BitVec 3) (b : Byte) (v : Word),
      Reads [0xB0 + n.setWidth 8, b] (.movRegImm (catalog .byte n) (.b b)) ∧
      Reads [0xB8 + n.setWidth 8, loByte v, hiByte v] (.movRegImm (catalog .word n) (.w v))) ∧
    (∀ (w : Width) (a : Word),
      Reads [0xA0 + w.bit, loByte a, hiByte a] (.movAccMem w ⟨.direct, .d16 a, none, some w⟩) ∧
      Reads [0xA2 + w.bit, loByte a, hiByte a] (.movMemAcc w ⟨.direct, .d16 a, none, some w⟩)) ∧
    ∀ e ∈ segmentCatalog, ReadsWordRm 0x8E (e.1.setWidth 3) (.movSregRm e.2) ∧
      ReadsWordRm 0x8C (e.1.setWidth 3) fun op => .movRmSreg op e.2) ∧
  ∀ s : State, s.mem.wf = true →
    (∀ dst src, WellFormed s.cfg.lockable (.movRmReg dst src) = true → .movRmReg ∈ s.cfg.simulated →
      operandOk s (pairWidth dst src) dst = true → operandOk s (pairWidth dst src) src = true →
      Moves (.movRmReg dst src) s (pairWidth dst src) dst (operandVal s (pairWidth dst src) src)) ∧
    (∀ dst imm, WellFormed s.cfg.lockable (.movRmImm dst imm) = true → .movRmImm ∈ s.cfg.simulated →
      operandOk s dst.width dst = true → Moves (.movRmImm dst imm) s dst.width dst (reduce dst.width imm.value)) ∧
    (∀ dst imm, WellFormed s.cfg.lockable (.movRegImm dst imm) = true → .movRegImm ∈ s.cfg.simulated →
      Moves (.movRegImm dst imm) s dst.width dst (reduce dst.width imm.value)) ∧
    (∀ w ea, WellFormed s.cfg.lockable (.movAccMem w ea) = true → .movAccMem ∈ s.cfg.simulated →
      operandOk s w (.mem ea) = true →
      Moves (.movAccMem w ea) s w (acc w) (operandVal s w (.mem ea))) ∧
    (∀ w ea, WellFormed s.cfg.lockable (.movMemAcc w ea) = true → .movMemAcc ∈ s.cfg.simulated →
      operandOk s w (.mem ea) = true →
      Moves (.movMemAcc w ea) s w (.mem ea) (operandVal s w (acc w))) ∧
    (∀ dst src, WellFormed s.cfg.lockable (.movRmSreg dst src) = true → .movRmSreg ∈ s.cfg.simulated →
      operandOk s .word dst = true → Moves (.movRmSreg dst src) s .word dst (s.seg src).toNat) ∧
    (∀ dst src, WellFormed s.cfg.lockable (.movSregRm dst src) = true → .movSregRm ∈ s.cfg.simulated →
      operandOk s .word src = true →
      ExecNext (.movSregRm dst src) s fun t => t.ip = nextIp (.movSregRm dst src) s ∧
        t.seg dst = BitVec.ofNat 16 (operandVal s .word src) ∧ Frame s t (touchSegs [dst]))

/-- One word `v` pushed: `sp` is two less, the word stands at `ss:sp`, nothing else changes but `ip`. -/
def Sys2Proof.Machine.Pushes (i : Instr) (s : State) (v : Word) : Prop :=
  ExecNext i s fun t => t.ip = nextIp i s ∧ t.reg .sp = s.reg .sp - 2 ∧
    t.byteAt (phys (s.seg .ss) (s.reg .sp - 2).toNat) = loByte v ∧
    t.byteAt (phys (s.seg .ss) (s.reg .sp - 2).toNat + 1) = hiByte v ∧
    Frame s t ((touchRegs [.sp]).add (touchBytes (bytesOf .word (phys (s.seg .ss) (s.reg .sp - 2).toNat))))

/-- 43_data_transfer R247, R249, R250, R251, R268: PUSH of a register, memory or segment register, and PUSHF. A push
of `sp` stores the decremented value. With their bytes. -/
def Obligations.PushResult : Prop :=
  (ReadsWordRm 0xFF 6 .pushRm ∧ ReadsReg16 0x50 .pushReg ∧
    (∀ e ∈ segmentCatalog, Reads [0x06 + 8 * e.1.setWidth 8] (.pushSreg e.2)) ∧ Reads [0x9C] .pushf) ∧
  ∀ s : State, s.mem.wf = true → phys (s.seg .ss) (s.reg .sp - 2).toNat + 1 < memSize →
    (∀ op, WellFormed s.cfg.lockable (.pushRm op) = true → .pushRm ∈ s.cfg.simulated → operandOk s .word op = true →
      Pushes (.pushRm op) s
        (if op = .reg16 .sp then s.reg .sp - 2 else BitVec.ofNat 16 (operandVal s .word op))) ∧
    (∀ r, .pushReg ∈ s.cfg.simulated → Pushes (.pushReg r) s (if r = .sp then s.reg .sp - 2 else s.reg r)) ∧
    (∀ sr, .pushSreg ∈ s.cfg.simulated → Pushes (.pushSreg sr) s (s.seg sr)) ∧
    (.pushf ∈ s.cfg.simulated → Pushes .pushf s (flagsWord s))

/-- The place of each flag in the flags word (10_state R26). -/
def Sys2Proof.Machine.flagPlaces : List (Flag × Nat) :=
  [(.CF, 0), (.PF, 2), (.AF, 4), (.ZF, 6), (.SF, 7), (.TF, 8), (.IF, 9), (.DF, 10), (.OF, 11)]

/-- 43_data_transfer R247, R252 to R254, R269: POP into a register or memory: the destination holds the word at
`ss:sp`, and `sp` is two more, but for a pop into `sp` itself, which leaves the popped word. POP into a segment
register; and POPF, which writes all nine flags from their bits of the popped word (10_state R26). With their bytes. -/
def Obligations.PopResult : Prop :=
  (ReadsWordRm 0x8F 0 .popRm ∧ ReadsReg16 0x58 .popReg ∧
    (∀ e ∈ segmentCatalog, e.2 ≠ .cs → Reads [0x07 + 8 * e.1.setWidth 8] (.popSreg e.2)) ∧ Reads [0x9D] .popf) ∧
  ∀ s : State, s.mem.wf = true → phys (s.seg .ss) (s.reg .sp).toNat + 1 < memSize →
    (∀ op, WellFormed s.cfg.lockable (.popRm op) = true → .popRm ∈ s.cfg.simulated → operandOk s .word op = true →
      ExecNext (.popRm op) s fun t => t.ip = nextIp (.popRm op) s ∧
        OperandHolds s t .word op (wordAt s (phys (s.seg .ss) (s.reg .sp).toNat)) ∧
        (op ≠ .reg16 .sp → t.reg .sp = s.reg .sp + 2) ∧
        Frame s t ((touchRegs [.sp]).add (touchOperand s .word op))) ∧
    (∀ r, .popReg ∈ s.cfg.simulated →
      ExecNext (.popReg r) s fun t => t.ip = nextIp (.popReg r) s ∧
        t.reg r = BitVec.ofNat 16 (wordAt s (phys (s.seg .ss) (s.reg .sp).toNat)) ∧
        (r ≠ .sp → t.reg .sp = s.reg .sp + 2) ∧ Frame s t (touchRegs [.sp, r])) ∧
    (∀ sr, WellFormed s.cfg.lockable (.popSreg sr) = true → .popSreg ∈ s.cfg.simulated →
      ExecNext (.popSreg sr) s fun t => t.ip = nextIp (.popSreg sr) s ∧
        t.seg sr = BitVec.ofNat 16 (wordAt s (phys (s.seg .ss) (s.reg .sp).toNat)) ∧
        t.reg .sp = s.reg .sp + 2 ∧ Frame s t ((touchRegs [.sp]).add (touchSegs [sr]))) ∧
    (.popf ∈ s.cfg.simulated →
      ExecNext .popf s fun t => t.ip = nextIp .popf s ∧ t.reg .sp = s.reg .sp + 2 ∧
        (∀ e ∈ flagPlaces, t.flag e.1 = (wordAt s (phys (s.seg .ss) (s.reg .sp).toNat)).testBit e.2) ∧
        Frame s t ((touchRegs [.sp]).add (touchFlags Flag.all)))

/-- 43_data_transfer R255, R256: XCHG: each operand holds what the other held; the address of a memory operand is
the one before the step. With their bytes. -/
def Obligations.XchgResult : Prop :=
  (ReadsW 0x86 (.xchgRmReg false) ∧ ReadsReg16 0x90 .xchgAccReg) ∧
  ∀ s : State, s.mem.wf = true →
    (∀ l op1 op2, WellFormed s.cfg.lockable (.xchgRmReg l op1 op2) = true → .xchgRmReg ∈ s.cfg.simulated →
      operandOk s (pairWidth op1 op2) op1 = true →
      ExecNext (.xchgRmReg l op1 op2) s fun t => t.ip = nextIp (.xchgRmReg l op1 op2) s ∧
        OperandHolds s t (pairWidth op1 op2) op1 (operandVal s (pairWidth op1 op2) op2) ∧
        OperandHolds s t (pairWidth op1 op2) op2 (operandVal s (pairWidth op1 op2) op1) ∧
        Frame s t ((touchOperand s (pairWidth op1 op2) op1).add (touchOperand s (pairWidth op1 op2) op2))) ∧
    (∀ r, .xchgAccReg ∈ s.cfg.simulated →
      ExecNext (.xchgAccReg r) s fun t => t.ip = nextIp (.xchgAccReg r) s ∧
        t.reg .ax = s.reg r ∧ t.reg r = s.reg .ax ∧ Frame s t (touchRegs [.ax, r]))

/-- 43_data_transfer R262 to R265: XLAT loads `al` from `ds:(bx + al) mod 65536`; LEA loads the offset and reaches no
memory; LDS and LES load the register from the word at the operand's address and `ds` or `es` from the word two bytes
on, both read before the step. With their bytes. -/
def Obligations.XlatLeaLdsLesResult : Prop :=
  (Reads [0xD7] .xlat ∧ ∀ (n : BitVec 3) (r : Reg16), catalog .word n = .reg16 r →
    ReadsMemOnly 0x8D n (.lea r) ∧ ReadsMemOnly 0xC5 n (.lds r) ∧ ReadsMemOnly 0xC4 n (.les r)) ∧
  ∀ s : State,
    (.xlat ∈ s.cfg.simulated →
      ExecNext .xlat s fun t => t.ip = nextIp .xlat s ∧
        t.reg8 .al = s.byteAt (phys (s.seg .ds) (((s.reg .bx).toNat + (s.reg8 .al).toNat) % 65536 : Nat)) ∧
        Frame s t (touchHalves [.al])) ∧
    (∀ r ea, WellFormed s.cfg.lockable (.lea r ea) = true → .lea ∈ s.cfg.simulated →
      ExecNext (.lea r ea) s fun t => t.ip = nextIp (.lea r ea) s ∧
        t.reg r = BitVec.ofInt 16 (eaOffset s ea) ∧ Frame s t (touchRegs [r])) ∧
    (∀ r ea, farOk s ea = true →
      (WellFormed s.cfg.lockable (.lds r ea) = true → .lds ∈ s.cfg.simulated →
        ExecNext (.lds r ea) s fun t => t.ip = nextIp (.lds r ea) s ∧
          t.reg r = BitVec.ofNat 16 (wordAt s (eaPhys s ea)) ∧
          t.seg .ds = BitVec.ofNat 16 (wordAt s (eaPhys s ea + 2)) ∧
          Frame s t ((touchRegs [r]).add (touchSegs [.ds]))) ∧
      (WellFormed s.cfg.lockable (.les r ea) = true → .les ∈ s.cfg.simulated →
        ExecNext (.les r ea) s fun t => t.ip = nextIp (.les r ea) s ∧
          t.reg r = BitVec.ofNat 16 (wordAt s (eaPhys s ea)) ∧
          t.seg .es = BitVec.ofNat 16 (wordAt s (eaPhys s ea + 2)) ∧
          Frame s t ((touchRegs [r]).add (touchSegs [.es]))))

/-- 10_state R26: bit by bit, `FlagsWord()` is the nine flags in their places and `FLAG_FILL` elsewhere; and
writing one flag writes that one alone (R24). -/
def Obligations.FlagsWordBits : Prop :=
  (∀ f : Flag, ∃ e ∈ flagPlaces, e.1 = f) ∧
  ∀ s : State, (∀ e ∈ flagPlaces, (flagsWord s).getLsbD e.2 = s.flag e.1) ∧
    (∀ k, k ∉ flagPlaces.map (·.2) → (flagsWord s).getLsbD k = s.cfg.flagFill.getLsbD k) ∧
    ∀ (f : Flag) (b : Bool), (∀ g, (s.setFlag f b).flag g = if g = f then b else s.flag g) ∧
      s.setFlag f b = { s with flags := (s.setFlag f b).flags }

/-- 43_data_transfer R266, R267: LAHF puts the low byte of the flags word into `ah`; SAHF writes CF, PF, AF, ZF, SF
from bits 0, 2, 4, 6, 7 of `ah`; with their bytes. -/
def Obligations.LahfAndSahfResult : Prop :=
  ∀ s : State, Reads [0x9F] .lahf ∧ Reads [0x9E] .sahf ∧
    (.lahf ∈ s.cfg.simulated →
      ExecNext .lahf s fun t => t.ip = nextIp .lahf s ∧ t.reg8 .ah = loByte (flagsWord s) ∧
        Frame s t (touchHalves [.ah])) ∧
    (.sahf ∈ s.cfg.simulated →
      ExecNext .sahf s fun t => t.ip = nextIp .sahf s ∧
        (t.flag .CF = (s.reg8 .ah).getLsbD 0 ∧ t.flag .PF = (s.reg8 .ah).getLsbD 2 ∧
          t.flag .AF = (s.reg8 .ah).getLsbD 4 ∧ t.flag .ZF = (s.reg8 .ah).getLsbD 6 ∧
          t.flag .SF = (s.reg8 .ah).getLsbD 7) ∧
        Frame s t (touchFlags [.CF, .PF, .AF, .ZF, .SF]))

/-! ### Arithmetic -/

/-- `dst` holds `(a + b + cin) mod M(w)`, with the six flags of an addition. -/
def Sys2Proof.Machine.Adds (i : Instr) (s : State) (w : Width) (dst : Operand) (a b cin : Nat) : Prop :=
  ExecNext i s fun t => t.ip = nextIp i s ∧ OperandHolds s t w dst ((a + b + cin) % modulus w) ∧
    (t.flag .CF = true ↔ a + b + cin ≥ modulus w) ∧ (t.flag .AF = true ↔ a % 16 + b % 16 + cin ≥ 16) ∧
    (t.flag .OF = true ↔ ¬ FitsSigned w (conv w a + conv w b + cin)) ∧
    ResultFlags t w ((a + b + cin) % modulus w) ∧
    Frame s t ((touchOperand s w dst).add (touchFlags arithFlags))

/-- 44_arithmetic R280 to R286, 42_alu_flags R202: ADD and ADC in their three forms. OF is stated as "the signed sum
does not fit", which is what the sign rule of R202 computes. With their bytes. -/
def Obligations.AddAndAdcResult : Prop :=
  (ReadsDW 0x00 (.addRmReg false) ∧ ReadsImmGroup 0 (.addRmImm false) ∧ ReadsAcc 0x04 .addAccImm ∧
    ReadsDW 0x10 (.adcRmReg false) ∧ ReadsImmGroup 2 (.adcRmImm false) ∧ ReadsAcc 0x14 .adcAccImm) ∧
  ∀ s : State, s.mem.wf = true →
    (∀ l op1 op2, operandOk s (pairWidth op1 op2) op1 = true → operandOk s (pairWidth op1 op2) op2 = true →
      (WellFormed s.cfg.lockable (.addRmReg l op1 op2) = true → .addRmReg ∈ s.cfg.simulated →
        Adds (.addRmReg l op1 op2) s (pairWidth op1 op2) op1 (operandVal s (pairWidth op1 op2) op1)
          (operandVal s (pairWidth op1 op2) op2) 0) ∧
      (WellFormed s.cfg.lockable (.adcRmReg l op1 op2) = true → .adcRmReg ∈ s.cfg.simulated →
        Adds (.adcRmReg l op1 op2) s (pairWidth op1 op2) op1 (operandVal s (pairWidth op1 op2) op1)
          (operandVal s (pairWidth op1 op2) op2) (s.flag .CF).toNat)) ∧
    (∀ l op imm, operandOk s op.width op = true →
      (WellFormed s.cfg.lockable (.addRmImm l op imm) = true → .addRmImm ∈ s.cfg.simulated →
        Adds (.addRmImm l op imm) s op.width op (operandVal s op.width op) (reduce op.width imm.value) 0) ∧
      (WellFormed s.cfg.lockable (.adcRmImm l op imm) = true → .adcRmImm ∈ s.cfg.simulated →
        Adds (.adcRmImm l op imm) s op.width op (operandVal s op.width op) (reduce op.width imm.value)
          (s.flag .CF).toNat)) ∧
    (∀ imm,
      (.addAccImm ∈ s.cfg.simulated →
        Adds (.addAccImm imm) s imm.width (acc imm.width) (operandVal s imm.width (acc imm.width))
          (reduce imm.width imm.value) 0) ∧
      (.adcAccImm ∈ s.cfg.simulated →
        Adds (.adcAccImm imm) s imm.width (acc imm.width) (operandVal s imm.width (acc imm.width))
          (reduce imm.width imm.value) (s.flag .CF).toNat))

/-- The six flags of `a - b - bin`, in `t` (42_alu_flags R203). -/
def Sys2Proof.Machine.SubFlags (t : State) (w : Width) (a b bin : Nat) : Prop :=
  (t.flag .CF = true ↔ a < b + bin) ∧ (t.flag .AF = true ↔ a % 16 < b % 16 + bin) ∧
  (t.flag .OF = true ↔ ¬ FitsSigned w (conv w a - conv w b - bin)) ∧
  ResultFlags t w (reduce w ((a : Int) - b - bin))

/-- `dst` holds `(a - b - bin) mod M(w)`, with the six flags of a subtraction. -/
def Sys2Proof.Machine.Subtracts (i : Instr) (s : State) (w : Width) (dst : Operand) (a b bin : Nat) : Prop :=
  ExecNext i s fun t => t.ip = nextIp i s ∧ OperandHolds s t w dst (reduce w ((a : Int) - b - bin)) ∧
    SubFlags t w a b bin ∧ Frame s t ((touchOperand s w dst).add (touchFlags arithFlags))

/-- 44_arithmetic R291 to R296, 42_alu_flags R203: SUB and SBB in their three forms. OF is stated as "the signed
difference does not fit", which is what the sign rule of R203 computes. With their bytes. -/
def Obligations.SubAndSbbResult : Prop :=
  (ReadsDW 0x28 (.subRmReg false) ∧ ReadsImmGroup 5 (.subRmImm false) ∧ ReadsAcc 0x2C .subAccImm ∧
    ReadsDW 0x18 (.sbbRmReg false) ∧ ReadsImmGroup 3 (.sbbRmImm false) ∧ ReadsAcc 0x1C .sbbAccImm) ∧
  ∀ s : State, s.mem.wf = true →
    (∀ l op1 op2, operandOk s (pairWidth op1 op2) op1 = true → operandOk s (pairWidth op1 op2) op2 = true →
      (WellFormed s.cfg.lockable (.subRmReg l op1 op2) = true → .subRmReg ∈ s.cfg.simulated →
        Subtracts (.subRmReg l op1 op2) s (pairWidth op1 op2) op1 (operandVal s (pairWidth op1 op2) op1)
          (operandVal s (pairWidth op1 op2) op2) 0) ∧
      (WellFormed s.cfg.lockable (.sbbRmReg l op1 op2) = true → .sbbRmReg ∈ s.cfg.simulated →
        Subtracts (.sbbRmReg l op1 op2) s (pairWidth op1 op2) op1 (operandVal s (pairWidth op1 op2) op1)
          (operandVal s (pairWidth op1 op2) op2) (s.flag .CF).toNat)) ∧
    (∀ l op imm, operandOk s op.width op = true →
      (WellFormed s.cfg.lockable (.subRmImm l op imm) = true → .subRmImm ∈ s.cfg.simulated →
        Subtracts (.subRmImm l op imm) s op.width op (operandVal s op.width op) (reduce op.width imm.value) 0) ∧
      (WellFormed s.cfg.lockable (.sbbRmImm l op imm) = true → .sbbRmImm ∈ s.cfg.simulated →
        Subtracts (.sbbRmImm l op imm) s op.width op (operandVal s op.width op) (reduce op.width imm.value)
          (s.flag .CF).toNat)) ∧
    (∀ imm,
      (.subAccImm ∈ s.cfg.simulated →
        Subtracts (.subAccImm imm) s imm.width (acc imm.width) (operandVal s imm.width (acc imm.width))
          (reduce imm.width imm.value) 0) ∧
      (.sbbAccImm ∈ s.cfg.simulated →
        Subtracts (.sbbAccImm imm) s imm.width (acc imm.width) (operandVal s imm.width (acc imm.width))
          (reduce imm.width imm.value) (s.flag .CF).toNat))

/-- 44_arithmetic R300 to R302: CMP in its three forms writes `ip` and the six flags of `a - b`, nothing else;
with their bytes. -/
def Obligations.CmpResult : Prop :=
  (ReadsDW 0x38 .cmpRmReg ∧ ReadsImmGroup 7 .cmpRmImm ∧ ReadsAcc 0x3C .cmpAccImm) ∧
  ∀ s : State,
    (∀ op1 op2, WellFormed s.cfg.lockable (.cmpRmReg op1 op2) = true → .cmpRmReg ∈ s.cfg.simulated →
      operandOk s (pairWidth op1 op2) op1 = true → operandOk s (pairWidth op1 op2) op2 = true →
      ExecNext (.cmpRmReg op1 op2) s fun t => t.ip = nextIp (.cmpRmReg op1 op2) s ∧
        SubFlags t (pairWidth op1 op2) (operandVal s (pairWidth op1 op2) op1)
          (operandVal s (pairWidth op1 op2) op2) 0 ∧ Frame s t (touchFlags arithFlags)) ∧
    (∀ op imm, WellFormed s.cfg.lockable (.cmpRmImm op imm) = true → .cmpRmImm ∈ s.cfg.simulated →
      operandOk s op.width op = true →
      ExecNext (.cmpRmImm op imm) s fun t => t.ip = nextIp (.cmpRmImm op imm) s ∧
        SubFlags t op.width (operandVal s op.width op) (reduce op.width imm.value) 0 ∧
        Frame s t (touchFlags arithFlags)) ∧
    (∀ imm, .cmpAccImm ∈ s.cfg.simulated →
      ExecNext (.cmpAccImm imm) s fun t => t.ip = nextIp (.cmpAccImm imm) s ∧
        SubFlags t imm.width (operandVal s imm.width (acc imm.width)) (reduce imm.width imm.value) 0 ∧
        Frame s t (touchFlags arithFlags))

/-- `dst` holds one more or one less, with the five flags of INC or DEC; CF is kept (42_alu_flags R206). -/
def Sys2Proof.Machine.StepsByOne (i : Instr) (s : State) (w : Width) (dst : Operand) (a : Nat) (delta : Int) : Prop :=
  ExecNext i s fun t => t.ip = nextIp i s ∧ OperandHolds s t w dst (reduce w (a + delta)) ∧
    (t.flag .AF = true ↔ ¬ (0 ≤ (a % 16 : Nat) + delta ∧ (a % 16 : Nat) + delta < 16)) ∧
    (t.flag .OF = true ↔ ¬ FitsSigned w (conv w a + delta)) ∧ ResultFlags t w (reduce w (a + delta)) ∧
    Frame s t ((touchOperand s w dst).add (touchFlags [.PF, .AF, .ZF, .SF, .OF]))

/-- 44_arithmetic R287, R288, R297 to R299, 42_alu_flags R206, R207: INC and DEC; NEG subtracts from 0: CF is "the
operand was not 0", AF "its low digit was not 0", OF "it was the most negative number". With their bytes. -/
def Obligations.IncDecNegResult : Prop :=
  (ReadsExt 0xFE 0 (.incRm false) ∧ ReadsExt 0xFE 1 (.decRm false) ∧ ReadsReg16 0x40 .incReg ∧
    ReadsReg16 0x48 .decReg ∧ ReadsExt 0xF6 3 (.neg false)) ∧
  ∀ s : State, s.mem.wf = true →
    (∀ l op, operandOk s op.width op = true →
      (WellFormed s.cfg.lockable (.incRm l op) = true → .incRm ∈ s.cfg.simulated →
        StepsByOne (.incRm l op) s op.width op (operandVal s op.width op) 1) ∧
      (WellFormed s.cfg.lockable (.decRm l op) = true → .decRm ∈ s.cfg.simulated →
        StepsByOne (.decRm l op) s op.width op (operandVal s op.width op) (-1))) ∧
    (∀ r,
      (.incReg ∈ s.cfg.simulated → StepsByOne (.incReg r) s .word (.reg16 r) (s.reg r).toNat 1) ∧
      (.decReg ∈ s.cfg.simulated → StepsByOne (.decReg r) s .word (.reg16 r) (s.reg r).toNat (-1))) ∧
    (∀ l op, WellFormed s.cfg.lockable (.neg l op) = true → .neg ∈ s.cfg.simulated → operandOk s op.width op = true →
      ExecNext (.neg l op) s fun t => t.ip = nextIp (.neg l op) s ∧
        OperandHolds s t op.width op (reduce op.width (-(operandVal s op.width op : Int))) ∧
        (t.flag .CF = true ↔ operandVal s op.width op ≠ 0) ∧
        (t.flag .AF = true ↔ operandVal s op.width op % 16 ≠ 0) ∧
        (t.flag .OF = true ↔ operandVal s op.width op = modulus op.width / 2) ∧
        ResultFlags t op.width (reduce op.width (-(operandVal s op.width op : Int))) ∧
        Frame s t ((touchOperand s op.width op).add (touchFlags arithFlags)))

/-- 44_arithmetic R289, R303: AAA and AAS, in full: their bytes, and the adjustment, the 8086 form in which the 6 stays
in `al`. -/
def Obligations.AsciiAdjustResult : Prop :=
  ∀ (s : State) (adjust : Bool),
    adjust = (decide ((s.reg8 .al).toNat % 16 > 9) || s.flag .AF) →
    Reads [0x37] .aaa ∧ Reads [0x3F] .aas ∧
    (.aaa ∈ s.cfg.simulated →
      ExecNext .aaa s fun t => t.ip = nextIp .aaa s ∧
        (t.reg8 .al).toNat = (if adjust then ((s.reg8 .al).toNat + 6) % 16 else (s.reg8 .al).toNat % 16) ∧
        t.reg8 .ah = (if adjust then s.reg8 .ah + 1 else s.reg8 .ah) ∧ t.flag .AF = adjust ∧ t.flag .CF = adjust ∧
        Frame s t ((touchRegs [.ax]).add (touchFlags ([.CF, .AF] ++ undefTouched s [.PF, .ZF, .SF, .OF])))) ∧
    (.aas ∈ s.cfg.simulated →
      ExecNext .aas s fun t => t.ip = nextIp .aas s ∧
        (t.reg8 .al).toNat = (if adjust then ((s.reg8 .al).toNat + 10) % 16 else (s.reg8 .al).toNat % 16) ∧
        t.reg8 .ah = (if adjust then s.reg8 .ah - 1 else s.reg8 .ah) ∧ t.flag .AF = adjust ∧ t.flag .CF = adjust ∧
        Frame s t ((touchRegs [.ax]).add (touchFlags ([.CF, .AF] ++ undefTouched s [.PF, .ZF, .SF, .OF]))))

/-- 44_arithmetic R290, R304: DAA and DAS, in full, with their bytes; both tests look at the original `al`. -/
def Obligations.DecimalAdjustResult : Prop :=
  ∀ (s : State) (low high : Bool),
    low = (decide ((s.reg8 .al).toNat % 16 > 9) || s.flag .AF) →
    high = (decide ((s.reg8 .al).toNat > 0x99) || s.flag .CF) →
    Reads [0x27] .daa ∧ Reads [0x2F] .das ∧
    (.daa ∈ s.cfg.simulated →
      ExecNext .daa s fun t => t.ip = nextIp .daa s ∧
        t.reg8 .al = s.reg8 .al + (if low then 6 else 0) + (if high then 0x60 else 0) ∧
        t.flag .AF = low ∧ t.flag .CF = high ∧ ResultFlags t .byte (t.reg8 .al).toNat ∧
        Frame s t ((touchHalves [.al]).add
          (touchFlags ([.CF, .PF, .AF, .ZF, .SF] ++ undefTouched s [.OF])))) ∧
    (.das ∈ s.cfg.simulated →
      ExecNext .das s fun t => t.ip = nextIp .das s ∧
        t.reg8 .al = s.reg8 .al - (if low then 6 else 0) - (if high then 0x60 else 0) ∧
        t.flag .AF = low ∧ t.flag .CF = high ∧ ResultFlags t .byte (t.reg8 .al).toNat ∧
        Frame s t ((touchHalves [.al]).add
          (touchFlags ([.CF, .PF, .AF, .ZF, .SF] ++ undefTouched s [.OF]))))

/-- 44_arithmetic R307, R310, R311, R312: AAM, AAD, CBW, CWD, in full, with their bytes. -/
def Obligations.AamAadCbwCwdResult : Prop :=
  ∀ (lk : Lockable) (s : State) (b : Byte) (rest : List Byte),
    (decodeOne lk (0xD4 :: b :: rest) = if b = 0x0A then .ok (.aam, rest) else .error .reservedEncoding) ∧
    (decodeOne lk (0xD5 :: b :: rest) = if b = 0x0A then .ok (.aad, rest) else .error .reservedEncoding) ∧
    Reads [0x98] .cbw ∧ Reads [0x99] .cwd ∧
    (.aam ∈ s.cfg.simulated →
      ExecNext .aam s fun t => t.ip = nextIp .aam s ∧ (t.reg8 .ah).toNat = (s.reg8 .al).toNat / 10 ∧
        (t.reg8 .al).toNat = (s.reg8 .al).toNat % 10 ∧ ResultFlags t .byte ((s.reg8 .al).toNat % 10) ∧
        Frame s t ((touchRegs [.ax]).add (touchFlags ([.PF, .ZF, .SF] ++ undefTouched s [.CF, .AF, .OF])))) ∧
    (.aad ∈ s.cfg.simulated →
      ExecNext .aad s fun t => t.ip = nextIp .aad s ∧
        (t.reg .ax).toNat = ((s.reg8 .ah).toNat * 10 + (s.reg8 .al).toNat) % 256 ∧
        ResultFlags t .byte (((s.reg8 .ah).toNat * 10 + (s.reg8 .al).toNat) % 256) ∧
        Frame s t ((touchRegs [.ax]).add (touchFlags ([.PF, .ZF, .SF] ++ undefTouched s [.CF, .AF, .OF])))) ∧
    (.cbw ∈ s.cfg.simulated →
      ExecNext .cbw s fun t => t.ip = nextIp .cbw s ∧ (t.reg .ax).toInt = (s.reg8 .al).toInt ∧
        Frame s t (touchRegs [.ax])) ∧
    (.cwd ∈ s.cfg.simulated →
      ExecNext .cwd s fun t => t.ip = nextIp .cwd s ∧ (t.reg .dx ++ t.reg .ax).toInt = (s.reg .ax).toInt ∧
        Frame s t (touchRegs [.dx]))

/-- The product `p` stands in `ax`, or in `dx:ax`; CF and OF say whether it needs the high half. -/
def Sys2Proof.Machine.Multiplies (i : Instr) (s : State) (w : Width) (p : Int) (wide : Prop) : Prop :=
  ExecNext i s fun t => t.ip = nextIp i s ∧
    (w = .byte → t.reg .ax = BitVec.ofInt 16 p ∧ t.reg .dx = s.reg .dx) ∧
    (w = .word → t.reg .dx ++ t.reg .ax = BitVec.ofInt 32 p) ∧
    (t.flag .CF = true ↔ wide) ∧ (t.flag .OF = true ↔ wide) ∧
    Frame s t ((touchRegs [.ax, .dx]).add (touchFlags ([.CF, .OF] ++ undefTouched s [.PF, .AF, .ZF, .SF])))

/-- 44_arithmetic R305, R306: MUL and IMUL at both widths, with their bytes. -/
def Obligations.MulAndImulResult : Prop :=
  (ReadsExt 0xF6 4 .mul ∧ ReadsExt 0xF6 5 .imul) ∧
  ∀ (s : State) (op : Operand), operandOk s op.width op = true →
    (WellFormed s.cfg.lockable (.mul op) = true → .mul ∈ s.cfg.simulated →
      Multiplies (.mul op) s op.width (operandVal s op.width (acc op.width) * operandVal s op.width op : Nat)
        (operandVal s op.width (acc op.width) * operandVal s op.width op ≥ modulus op.width)) ∧
    (WellFormed s.cfg.lockable (.imul op) = true → .imul ∈ s.cfg.simulated →
      Multiplies (.imul op) s op.width
        (conv op.width (operandVal s op.width (acc op.width)) * conv op.width (operandVal s op.width op))
        (¬ FitsSigned op.width
          (conv op.width (operandVal s op.width (acc op.width)) * conv op.width (operandVal s op.width op))))

/-- The quotient and the remainder stand in `al` and `ah`, or in `ax` and `dx`. -/
def Sys2Proof.Machine.Divides (i : Instr) (s : State) (w : Width) (q r : Int) : Prop :=
  ExecNext i s fun t => t.ip = nextIp i s ∧
    (w = .byte → t.reg8 .al = BitVec.ofInt 8 q ∧ t.reg8 .ah = BitVec.ofInt 8 r ∧ t.reg .dx = s.reg .dx) ∧
    (w = .word → t.reg .ax = BitVec.ofInt 16 q ∧ t.reg .dx = BitVec.ofInt 16 r) ∧
    Frame s t ((touchRegs [.ax, .dx]).add (touchFlags (undefTouched s arithFlags)))

/-- 44_arithmetic R308, 60_exceptions R435: DIV: where the divisor is not 0 and the quotient fits, `n = q * d + r` with
`r < d`; otherwise `DivideError`. With its bytes. -/
def Obligations.DivResult : Prop :=
  ReadsExt 0xF6 6 .div ∧
  ∀ (s : State) (op : Operand) (n d : Nat), WellFormed s.cfg.lockable (.div op) = true → .div ∈ s.cfg.simulated →
    operandOk s op.width op = true → d = operandVal s op.width op →
    n = (match op.width with
      | .byte => (s.reg .ax).toNat
      | .word => (s.reg .dx).toNat * 65536 + (s.reg .ax).toNat) →
    (∀ q r : Nat, n = q * d + r → r < d → q < modulus op.width → Divides (.div op) s op.width q r) ∧
    (d = 0 ∨ n ≥ modulus op.width * d → exec (.div op) s = .fault .divideError)

/-- 44_arithmetic R309, 60_exceptions R435: IDIV truncates toward zero, the remainder has the sign of the dividend;
a divisor of 0, a quotient above the largest signed value or below the parameter `IDIV_MIN8` or `IDIV_MIN16`, by
width, is `DivideError`. With its bytes. -/
def Obligations.IdivResult : Prop :=
  ReadsExt 0xF6 7 .idiv ∧
  ∀ (s : State) (op : Operand) (n d lo : Int), WellFormed s.cfg.lockable (.idiv op) = true → .idiv ∈ s.cfg.simulated →
    operandOk s op.width op = true → d = conv op.width (operandVal s op.width op) →
    n = (match op.width with
      | .byte => (s.reg .ax).toInt
      | .word => (s.reg .dx ++ s.reg .ax).toInt) →
    lo = (match op.width with
      | .byte => s.cfg.idivMin8
      | .word => s.cfg.idivMin16) →
    (d ≠ 0 → n.tdiv d < (modulus op.width / 2 : Nat) → lo ≤ n.tdiv d →
      Divides (.idiv op) s op.width (n.tdiv d) (n - d * n.tdiv d)) ∧
    (d = 0 ∨ n.tdiv d ≥ (modulus op.width / 2 : Nat) ∨ n.tdiv d < lo →
      exec (.idiv op) s = .fault .divideError)

/-! ### Logic, shifts and rotates -/

/-- The flags of a logic result: CF and OF cleared, SF ZF PF from it (42_alu_flags R205). -/
def Sys2Proof.Machine.LogicFlags (t : State) (w : Width) (r : Nat) : Prop :=
  t.flag .CF = false ∧ t.flag .OF = false ∧ ResultFlags t w r

/-- `dst` holds `r`, bit by bit the function `f` of the operands, with the flags of a logic result. -/
def Sys2Proof.Machine.Combines (i : Instr) (s : State) (w : Width) (dst : Operand) (f : Bool → Bool → Bool)
    (a b : Nat) : Prop :=
  ∃ r, r < modulus w ∧ (∀ k, k ≤ msb w → r.testBit k = f (a.testBit k) (b.testBit k)) ∧
    ExecNext i s fun t => t.ip = nextIp i s ∧ OperandHolds s t w dst r ∧ LogicFlags t w r ∧
      Frame s t ((touchOperand s w dst).add (touchFlags ([.CF, .PF, .ZF, .SF, .OF] ++ undefTouched s [.AF])))

/-- 45_logic_shift R320, R329 to R331, R335 to R340: AND, OR and XOR in their three forms, with their bytes. -/
def Obligations.AndOrXorResult : Prop :=
  (ReadsDW 0x20 (.andRmReg false) ∧ ReadsExtImm 0x80 4 (.andRmImm false) ∧ ReadsAcc 0x24 .andAccImm ∧
    ReadsDW 0x08 (.orRmReg false) ∧ ReadsExtImm 0x80 1 (.orRmImm false) ∧ ReadsAcc 0x0C .orAccImm ∧
    ReadsDW 0x30 (.xorRmReg false) ∧ ReadsExtImm 0x80 6 (.xorRmImm false) ∧ ReadsAcc 0x34 .xorAccImm) ∧
  ∀ s : State, s.mem.wf = true →
    (∀ l op1 op2, operandOk s (pairWidth op1 op2) op1 = true → operandOk s (pairWidth op1 op2) op2 = true →
      (WellFormed s.cfg.lockable (.andRmReg l op1 op2) = true → .andRmReg ∈ s.cfg.simulated →
        Combines (.andRmReg l op1 op2) s (pairWidth op1 op2) op1 (· && ·) (operandVal s (pairWidth op1 op2) op1)
          (operandVal s (pairWidth op1 op2) op2)) ∧
      (WellFormed s.cfg.lockable (.orRmReg l op1 op2) = true → .orRmReg ∈ s.cfg.simulated →
        Combines (.orRmReg l op1 op2) s (pairWidth op1 op2) op1 (· || ·) (operandVal s (pairWidth op1 op2) op1)
          (operandVal s (pairWidth op1 op2) op2)) ∧
      (WellFormed s.cfg.lockable (.xorRmReg l op1 op2) = true → .xorRmReg ∈ s.cfg.simulated →
        Combines (.xorRmReg l op1 op2) s (pairWidth op1 op2) op1 (xor · ·) (operandVal s (pairWidth op1 op2) op1)
          (operandVal s (pairWidth op1 op2) op2))) ∧
    (∀ l op imm, operandOk s op.width op = true →
      (WellFormed s.cfg.lockable (.andRmImm l op imm) = true → .andRmImm ∈ s.cfg.simulated →
        Combines (.andRmImm l op imm) s op.width op (· && ·) (operandVal s op.width op)
          (reduce op.width imm.value)) ∧
      (WellFormed s.cfg.lockable (.orRmImm l op imm) = true → .orRmImm ∈ s.cfg.simulated →
        Combines (.orRmImm l op imm) s op.width op (· || ·) (operandVal s op.width op)
          (reduce op.width imm.value)) ∧
      (WellFormed s.cfg.lockable (.xorRmImm l op imm) = true → .xorRmImm ∈ s.cfg.simulated →
        Combines (.xorRmImm l op imm) s op.width op (xor · ·) (operandVal s op.width op)
          (reduce op.width imm.value))) ∧
    (∀ imm,
      (.andAccImm ∈ s.cfg.simulated →
        Combines (.andAccImm imm) s imm.width (acc imm.width) (· && ·) (operandVal s imm.width (acc imm.width))
          (reduce imm.width imm.value)) ∧
      (.orAccImm ∈ s.cfg.simulated →
        Combines (.orAccImm imm) s imm.width (acc imm.width) (· || ·) (operandVal s imm.width (acc imm.width))
          (reduce imm.width imm.value)) ∧
      (.xorAccImm ∈ s.cfg.simulated →
        Combines (.xorAccImm imm) s imm.width (acc imm.width) (xor · ·) (operandVal s imm.width (acc imm.width))
          (reduce imm.width imm.value)))

/-- The flags of `a AND b`, and nothing else but `ip`. -/
def Sys2Proof.Machine.Tests (i : Instr) (s : State) (w : Width) (a b : Nat) : Prop :=
  ExecNext i s fun t => t.ip = nextIp i s ∧ LogicFlags t w (a &&& b) ∧
    Frame s t (touchFlags ([.CF, .PF, .ZF, .SF, .OF] ++ undefTouched s [.AF]))

/-- 45_logic_shift R321, R332 to R334: TEST in its three forms, and NOT, which writes no flag; with
their bytes. -/
def Obligations.TestAndNotResult : Prop :=
  (ReadsW 0x84 .testRmReg ∧ ReadsExtImm 0xF6 0 .testRmImm ∧ ReadsAcc 0xA8 .testAccImm ∧
    ReadsExt 0xF6 2 (.not false)) ∧
  ∀ s : State,
    (∀ op1 op2, WellFormed s.cfg.lockable (.testRmReg op1 op2) = true → .testRmReg ∈ s.cfg.simulated →
      operandOk s (pairWidth op1 op2) op1 = true →
      Tests (.testRmReg op1 op2) s (pairWidth op1 op2) (operandVal s (pairWidth op1 op2) op1)
        (operandVal s (pairWidth op1 op2) op2)) ∧
    (∀ op imm, WellFormed s.cfg.lockable (.testRmImm op imm) = true → .testRmImm ∈ s.cfg.simulated →
      operandOk s op.width op = true →
      Tests (.testRmImm op imm) s op.width (operandVal s op.width op) (reduce op.width imm.value)) ∧
    (∀ imm, .testAccImm ∈ s.cfg.simulated →
      Tests (.testAccImm imm) s imm.width (operandVal s imm.width (acc imm.width)) (reduce imm.width imm.value)) ∧
    (∀ l op, s.mem.wf = true → WellFormed s.cfg.lockable (.not l op) = true → .not ∈ s.cfg.simulated →
      operandOk s op.width op = true →
      ExecNext (.not l op) s fun t => t.ip = nextIp (.not l op) s ∧
        OperandHolds s t op.width op (modulus op.width - 1 - operandVal s op.width op) ∧
        Frame s t (touchOperand s op.width op))

/-- The instruction of each shift and rotate operation, and its kind. -/
def Sys2Proof.Machine.shiftInstr (op : Operand) (count : ShiftCount) : ShiftOp → Instr × Kind
  | .shl => (.shl op count, .shl)
  | .shr => (.shr op count, .shr)
  | .sar => (.sar op count, .sar)
  | .rol => (.rol op count, .rol)
  | .ror => (.ror op count, .ror)
  | .rcl => (.rcl op count, .rcl)
  | .rcr => (.rcr op count, .rcr)

/-- 45_logic_shift R320, R322 to R328, 42_alu_flags R211, R212: the seven shifts and rotates by a count of at least 1:
the operand holds the result of `ShiftRot`, CF its carry; a shift also writes SF ZF PF; OF is written at a count of
1 only. The count is 1, or the whole of `cl`, not masked (R210). With a count of 0 in `cl` only `ip` changes. With
their bytes. -/
def Obligations.ShiftAndRotateResult : Prop :=
  (∀ e ∈ [((0 : BitVec 3), ShiftOp.rol), (1, .ror), (2, .rcl), (3, .rcr), (4, .shl), (5, .shr), (7, .sar)],
    ReadsExt 0xD0 e.1 (fun op => (shiftInstr op .one e.2).1) ∧
    ReadsExt 0xD2 e.1 fun op => (shiftInstr op .cl e.2).1) ∧
  ∀ (s : State) (dst : Operand) (count : ShiftCount) (sh : ShiftOp) (c : Nat),
    c = (match count with
      | .one => 1
      | .cl => (s.reg .cx).toNat % 256) →
    WellFormed s.cfg.lockable (shiftInstr dst count sh).1 = true → (shiftInstr dst count sh).2 ∈ s.cfg.simulated →
    operandOk s dst.width dst = true →
    (c = 0 → exec (shiftInstr dst count sh).1 s =
      .next { s with ip := nextIp (shiftInstr dst count sh).1 s }) ∧
    (∀ (r : Nat) (cf : Bool), s.mem.wf = true → c ≠ 0 →
      (r, cf) = shiftRot sh dst.width c (operandVal s dst.width dst, s.flag .CF) →
      ExecNext (shiftInstr dst count sh).1 s fun t => t.ip = nextIp (shiftInstr dst count sh).1 s ∧
        OperandHolds s t dst.width dst r ∧ t.flag .CF = cf ∧
        (sh = .shl ∨ sh = .shr ∨ sh = .sar → ResultFlags t dst.width r) ∧
        (c = 1 →
          (sh = .shl ∨ sh = .rol ∨ sh = .rcl → t.flag .OF = xor (r.testBit (msb dst.width)) cf) ∧
          (sh = .shr → t.flag .OF = (operandVal s dst.width dst).testBit (msb dst.width)) ∧
          (sh = .sar → t.flag .OF = false) ∧
          (sh = .ror ∨ sh = .rcr →
            t.flag .OF = xor (r.testBit (msb dst.width)) (r.testBit (msb dst.width - 1)))) ∧
        Frame s t ((touchOperand s dst.width dst).add (touchFlags
          ([.CF] ++ (if sh.isShift then [.PF, .ZF, .SF] ++ undefTouched s [.AF] else []) ++
            (if c = 1 then [.OF] else undefTouched s [.OF])))))

/-- 42_alu_flags R209, R210: `ShiftRot` is one one-bit step after another, and each one-bit step is the table's:
what it does to each bit of the operand and to the carry. It starts from the operand and the carry as they are. -/
def Obligations.OneBitSteps : Prop :=
  ∀ (w : Width) (r : Nat) (cf : Bool), r < modulus w →
    (∀ sh, shiftRot sh w 0 (r, cf) = (r, cf)) ∧
    (∀ sh c, shiftRot sh w (c + 1) (r, cf) = shiftStep sh w (shiftRot sh w c (r, cf))) ∧
    (∀ sh, (shiftStep sh w (r, cf)).1 < modulus w) ∧
    (∀ sh k, k ≤ msb w → (shiftStep sh w (r, cf)).1.testBit k =
      match sh with
      | .shl => decide (k ≠ 0) && r.testBit (k - 1)
      | .rol => if k = 0 then r.testBit (msb w) else r.testBit (k - 1)
      | .rcl => if k = 0 then cf else r.testBit (k - 1)
      | .shr => decide (k ≠ msb w) && r.testBit (k + 1)
      | .sar => if k = msb w then r.testBit (msb w) else r.testBit (k + 1)
      | .ror => if k = msb w then r.testBit 0 else r.testBit (k + 1)
      | .rcr => if k = msb w then cf else r.testBit (k + 1)) ∧
    (∀ sh, (shiftStep sh w (r, cf)).2 =
      match sh with
      | .shl => r.testBit (msb w)
      | .rol => r.testBit (msb w)
      | .rcl => r.testBit (msb w)
      | .shr => r.testBit 0
      | .sar => r.testBit 0
      | .ror => r.testBit 0
      | .rcr => r.testBit 0)

/-- 42_alu_flags R210: the closed forms the rule gives: the count is not masked; SHL and SHR by at least the width
give 0, SAR all sign bits; ROL and ROR have period `n`, RCL and RCR period `n + 1`. -/
def Obligations.ShiftClosedForms : Prop :=
  ∀ (w : Width) (a : Nat) (cf : Bool) (c : Nat), a < modulus w →
    (c > msb w + 1 → shiftRot .shl w c (a, cf) = (0, false) ∧ shiftRot .shr w c (a, cf) = (0, false)) ∧
    (shiftRot .shl w (msb w + 1) (a, cf) = (0, a.testBit 0)) ∧
    (shiftRot .shr w (msb w + 1) (a, cf) = (0, a.testBit (msb w))) ∧
    (c ≥ msb w + 1 → shiftRot .sar w c (a, cf) =
      (if a.testBit (msb w) then modulus w - 1 else 0, a.testBit (msb w))) ∧
    (shiftRot .rol w (c + (msb w + 1)) (a, cf)).1 = (shiftRot .rol w c (a, cf)).1 ∧
    (shiftRot .ror w (c + (msb w + 1)) (a, cf)).1 = (shiftRot .ror w c (a, cf)).1 ∧
    shiftRot .rcl w (c + (msb w + 2)) (a, cf) = shiftRot .rcl w c (a, cf) ∧
    shiftRot .rcr w (c + (msb w + 2)) (a, cf) = shiftRot .rcr w c (a, cf) ∧
    (c ≥ 1 → (shiftRot .rol w c (a, cf)).2 = (shiftRot .rol w c (a, cf)).1.testBit 0 ∧
      (shiftRot .ror w c (a, cf)).2 = (shiftRot .ror w c (a, cf)).1.testBit (msb w))

/-! ### Strings -/

/-- An index register after one element of a string: 1 on or back for a byte, 2 for a word (46_string R350). -/
def Sys2Proof.Machine.moved (s : State) (w : Width) (r : Reg16) : Word :=
  match w with
  | .byte => if s.flag .DF then s.reg r - 1 else s.reg r + 1
  | .word => if s.flag .DF then s.reg r - 2 else s.reg r + 2

/-- 46_string R350, R352, R353, R354, R355, R356: one element of each string instruction without a repeat. `src` is the
element at `ds:si`, `dst` the one at `es:di`. With the bytes, repeated or not. -/
def Obligations.StringElementResult : Prop :=
  (∀ w : Width, ∀ e ∈ [((0xA4 : Byte), fun r => Instr.movs w r), (0xA6, .cmps w), (0xAE, .scas w), (0xAC, .lods w),
      (0xAA, .stos w)],
    Reads [e.1 + w.bit] (e.2 .none) ∧ Reads [0xF3, e.1 + w.bit] (e.2 .rep) ∧ Reads [0xF2, e.1 + w.bit] (e.2 .repne)) ∧
  ∀ (s : State) (w : Width) (src dst : Nat), src = phys (s.seg .ds) (s.reg .si).toNat →
    dst = phys (s.seg .es) (s.reg .di).toNat →
    (s.mem.wf = true → .movs ∈ s.cfg.simulated → accessOk w src = true → accessOk w dst = true →
      ExecNext (.movs w .none) s fun t => t.ip = s.ip + 1 ∧ BytesHold t w dst (valueAt s w src) ∧
        t.reg .si = moved s w .si ∧ t.reg .di = moved s w .di ∧
        Frame s t ((touchRegs [.si, .di]).add (touchBytes (bytesOf w dst)))) ∧
    (.cmps ∈ s.cfg.simulated → accessOk w src = true → accessOk w dst = true →
      ExecNext (.cmps w .none) s fun t => t.ip = s.ip + 1 ∧ SubFlags t w (valueAt s w src) (valueAt s w dst) 0 ∧
        t.reg .si = moved s w .si ∧ t.reg .di = moved s w .di ∧
        Frame s t ((touchRegs [.si, .di]).add (touchFlags arithFlags))) ∧
    (.scas ∈ s.cfg.simulated → accessOk w dst = true →
      ExecNext (.scas w .none) s fun t => t.ip = s.ip + 1 ∧
        SubFlags t w (operandVal s w (acc w)) (valueAt s w dst) 0 ∧ t.reg .di = moved s w .di ∧
        Frame s t ((touchRegs [.di]).add (touchFlags arithFlags))) ∧
    (.lods ∈ s.cfg.simulated → accessOk w src = true →
      ExecNext (.lods w .none) s fun t => t.ip = s.ip + 1 ∧ OperandHolds s t w (acc w) (valueAt s w src) ∧
        t.reg .si = moved s w .si ∧ Frame s t ((touchRegs [.si]).add (touchOperand s w (acc w)))) ∧
    (s.mem.wf = true → .stos ∈ s.cfg.simulated → accessOk w dst = true →
      ExecNext (.stos w .none) s fun t => t.ip = s.ip + 1 ∧ BytesHold t w dst (operandVal s w (acc w)) ∧
        t.reg .di = moved s w .di ∧ Frame s t ((touchRegs [.di]).add (touchBytes (bytesOf w dst))))

/-- 46_string R351: a repeated string instruction with `cx` 0 changes only `ip`; with `cx` not 0 it is one element,
`cx` one less, and then either the end (CMPS and SCAS, where ZF says so) or the same instruction again; an element
that faults makes the whole step fault. -/
def Obligations.RepeatUnrolls : Prop :=
  ∀ (s : State) (w : Width) (r : Rep), r ≠ .none → ∀ e ∈ stringInstr w r, e.2.2.1 ∈ s.cfg.simulated →
    (s.reg .cx = 0 → exec e.2.1 s = .next { s with ip := s.ip + 2 }) ∧
    (s.reg .cx ≠ 0 →
      (∀ f, exec e.1 s = .fault f → exec e.2.1 s = .fault f) ∧
      ∀ t, exec e.1 s = .next t →
        exec e.2.1 s =
          (if e.2.2.2 = true ∧ (r = .rep ∧ t.flag .ZF = false ∨ r = .repne ∧ t.flag .ZF = true) then
            .next ((t.setReg .cx (s.reg .cx - 1)).setIp (s.ip + 2))
          else exec e.2.1 ((t.setReg .cx (s.reg .cx - 1)).setIp s.ip)))

/-- The offset an index register has at element `k` of a repeated byte string (46_string R350, R351). -/
def Sys2Proof.Machine.indexAt (s : State) (r : Reg16) (k : Nat) : Word :=
  if s.flag .DF then s.reg r - BitVec.ofNat 16 k else s.reg r + BitVec.ofNat 16 k

/-- The byte at element `k` of the destination string. -/
def Sys2Proof.Machine.destByte (s : State) (k : Nat) : Nat :=
  (s.byteAt (phys (s.seg .es) (indexAt s .di k).toNat)).toNat

/-- The byte at element `k` of the source string. -/
def Sys2Proof.Machine.sourceByte (s : State) (k : Nat) : Nat :=
  (s.byteAt (phys (s.seg .ds) (indexAt s .si k).toNat)).toNat

/-- A repeated comparison of the bytes `a k` and `b k` makes `n` of them: up to `cx`, or to the first one where the
repeat ends, the first difference for REPE, the first match for REPNE; the flags are the last one's (46_string R351). -/
def Sys2Proof.Machine.ComparesUpTo (i : Instr) (s : State) (r : Rep) (a b : Nat → Nat) (index : List Reg16) : Prop :=
  ExecNext i s fun t => t.ip = s.ip + 2 ∧ ∃ n : Nat, n ≤ (s.reg .cx).toNat ∧
    (∀ k, k + 1 < n → (r = .rep → a k = b k) ∧ (r = .repne → a k ≠ b k)) ∧
    (n = (s.reg .cx).toNat ∨ ∃ k, n = k + 1 ∧ (r = .rep → a k ≠ b k) ∧ (r = .repne → a k = b k)) ∧
    t.reg .cx = s.reg .cx - BitVec.ofNat 16 n ∧ (∀ x ∈ index, t.reg x = indexAt s x n) ∧
    (∀ k, n = k + 1 → SubFlags t .byte (a k) (b k) 0) ∧
    Frame s t ((touchRegs (.cx :: index)).add (touchFlags (if s.reg .cx = 0 then [] else arithFlags)))

/-- 46_string R351 to R356, 60_exceptions R434: a repeated byte string always completes. MOVS, LODS and STOS leave `cx`
0 and each index register they use moved by `cx` elements; CMPS and SCAS compare up to the element that ends the
repeat, and `cx`, the index registers and the flags are as it leaves them. -/
def Obligations.RepeatedByteStringCompletes : Prop :=
  ∀ (s : State) (r : Rep) (c : Nat) (written : List Nat), r ≠ .none → c = (s.reg .cx).toNat →
    written = (List.range c).map (fun k => phys (s.seg .es) (indexAt s .di k).toNat) →
    (.movs ∈ s.cfg.simulated → ExecNext (.movs .byte r) s fun t => t.ip = s.ip + 2 ∧ t.reg .cx = 0 ∧
      t.reg .si = indexAt s .si c ∧ t.reg .di = indexAt s .di c ∧
      Frame s t ((touchRegs [.cx, .si, .di]).add (touchBytes written))) ∧
    (.lods ∈ s.cfg.simulated → ExecNext (.lods .byte r) s fun t => t.ip = s.ip + 2 ∧ t.reg .cx = 0 ∧
      t.reg .si = indexAt s .si c ∧ (∀ k, c = k + 1 → (t.reg8 .al).toNat = sourceByte s k) ∧
      Frame s t ((touchRegs [.cx, .si]).add (touchHalves [.al]))) ∧
    (.stos ∈ s.cfg.simulated → ExecNext (.stos .byte r) s fun t => t.ip = s.ip + 2 ∧ t.reg .cx = 0 ∧
      t.reg .di = indexAt s .di c ∧ Frame s t ((touchRegs [.cx, .di]).add (touchBytes written))) ∧
    (.cmps ∈ s.cfg.simulated →
      ComparesUpTo (.cmps .byte r) s r (sourceByte s) (destByte s) [.si, .di]) ∧
    (.scas ∈ s.cfg.simulated →
      ComparesUpTo (.scas .byte r) s r (fun _ => (s.reg8 .al).toNat) (destByte s) [.di])

/-! ### Control transfer -/

/-- `ip` is `dest`, the return offset stands at the new `ss:sp`, nothing else changes. -/
def Sys2Proof.Machine.CallsNear (i : Instr) (s : State) (dest : Word) : Prop :=
  ExecNext i s fun t => t.ip = dest ∧ t.reg .sp = s.reg .sp - 2 ∧
    t.byteAt (phys (s.seg .ss) (s.reg .sp - 2).toNat) = loByte (nextIp i s) ∧
    t.byteAt (phys (s.seg .ss) (s.reg .sp - 2).toNat + 1) = hiByte (nextIp i s) ∧
    Frame s t ((touchRegs [.sp]).add (touchBytes (bytesOf .word (phys (s.seg .ss) (s.reg .sp - 2).toNat))))

/-- 47_control_transfer R365, R366, R367: CALL within a segment; an indirect operand is read before the push.
With their bytes. -/
def Obligations.CallNearResult : Prop :=
  ((∀ d : Word, Reads [0xE8, loByte d, hiByte d] (.callNear d)) ∧ ReadsWordRm 0xFF 2 .callNearInd) ∧
  ∀ s : State, s.mem.wf = true → phys (s.seg .ss) (s.reg .sp - 2).toNat + 1 < memSize →
    (∀ disp, .callNear ∈ s.cfg.simulated → CallsNear (.callNear disp) s (s.ip + 3 + disp)) ∧
    (∀ op, WellFormed s.cfg.lockable (.callNearInd op) = true → .callNearInd ∈ s.cfg.simulated →
      operandOk s .word op = true →
      CallsNear (.callNearInd op) s (BitVec.ofNat 16 (operandVal s .word op)))

/-- `ip` and `cs` are the far target; the old `cs` stands at `sp - 2` and the return offset at `sp - 4`. -/
def Sys2Proof.Machine.CallsFar (i : Instr) (s : State) (sg off : Word) : Prop :=
  ExecNext i s fun t => t.ip = off ∧ t.seg .cs = sg ∧ t.reg .sp = s.reg .sp - 4 ∧
    t.byteAt (phys (s.seg .ss) (s.reg .sp - 4).toNat) = loByte (nextIp i s) ∧
    t.byteAt (phys (s.seg .ss) (s.reg .sp - 4).toNat + 1) = hiByte (nextIp i s) ∧
    t.byteAt (phys (s.seg .ss) (s.reg .sp - 2).toNat) = loByte (s.seg .cs) ∧
    t.byteAt (phys (s.seg .ss) (s.reg .sp - 2).toNat + 1) = hiByte (s.seg .cs) ∧
    Frame s t (((touchRegs [.sp]).add (touchSegs [.cs])).add (touchBytes
      (bytesOf .word (phys (s.seg .ss) (s.reg .sp - 2).toNat) ++
        bytesOf .word (phys (s.seg .ss) (s.reg .sp - 4).toNat))))

/-- 47_control_transfer R368, R369: CALL to another segment, direct and indirect, with their bytes. -/
def Obligations.CallFarResult : Prop :=
  ((∀ sg off : Word, Reads [0x9A, loByte off, hiByte off, loByte sg, hiByte sg] (.callFar sg off)) ∧
    ReadsMemOnly 0xFF 3 .callFarInd) ∧
  ∀ s : State, s.mem.wf = true → phys (s.seg .ss) (s.reg .sp - 2).toNat + 1 < memSize →
    phys (s.seg .ss) (s.reg .sp - 4).toNat + 1 < memSize →
    (∀ sg off, .callFar ∈ s.cfg.simulated → CallsFar (.callFar sg off) s sg off) ∧
    (∀ ea, WellFormed s.cfg.lockable (.callFarInd ea) = true → .callFarInd ∈ s.cfg.simulated → farOk s ea = true →
      CallsFar (.callFarInd ea) s (BitVec.ofNat 16 (wordAt s (eaPhys s ea + 2)))
        (BitVec.ofNat 16 (wordAt s (eaPhys s ea))))

/-- 47_control_transfer R365, R370 to R374: the five JMPs: `ip`, and `cs` for the far ones, and nothing else; with their
bytes. -/
def Obligations.JmpResult : Prop :=
  ∀ s : State,
    ((∀ (b : Byte) (v sg : Word), Reads [0xE9, loByte v, hiByte v] (.jmpNear v) ∧ Reads [0xEB, b] (.jmpShort b) ∧
        Reads [0xEA, loByte v, hiByte v, loByte sg, hiByte sg] (.jmpFar sg v)) ∧
      ReadsWordRm 0xFF 4 .jmpNearInd ∧ ReadsMemOnly 0xFF 5 .jmpFarInd) ∧
    (∀ disp, .jmpNear ∈ s.cfg.simulated → exec (.jmpNear disp) s = .next { s with ip := s.ip + 3 + disp }) ∧
    (∀ disp, .jmpShort ∈ s.cfg.simulated →
      exec (.jmpShort disp) s = .next { s with ip := s.ip + 2 + disp.signExtend 16 }) ∧
    (∀ op, WellFormed s.cfg.lockable (.jmpNearInd op) = true → .jmpNearInd ∈ s.cfg.simulated →
      operandOk s .word op = true →
      exec (.jmpNearInd op) s = .next { s with ip := BitVec.ofNat 16 (operandVal s .word op) }) ∧
    (∀ sg off, .jmpFar ∈ s.cfg.simulated → exec (.jmpFar sg off) s = .next ((s.setIp off).setSeg .cs sg)) ∧
    (∀ ea, WellFormed s.cfg.lockable (.jmpFarInd ea) = true → .jmpFarInd ∈ s.cfg.simulated → farOk s ea = true →
      exec (.jmpFarInd ea) s = .next ((s.setIp (BitVec.ofNat 16 (wordAt s (eaPhys s ea)))).setSeg .cs
        (BitVec.ofNat 16 (wordAt s (eaPhys s ea + 2)))))

/-- 47_control_transfer R375 to R378: the four RETs: `ip` (and `cs`) popped, `sp` past them and past the count.
With their bytes. -/
def Obligations.RetResult : Prop :=
  (Reads [0xC3] .retNear ∧ Reads [0xCB] .retFar ∧ ∀ n : Word, Reads [0xC2, loByte n, hiByte n] (.retNearImm n) ∧
    Reads [0xCA, loByte n, hiByte n] (.retFarImm n)) ∧
  ∀ (s : State) (n off sg : Word), phys (s.seg .ss) (s.reg .sp).toNat + 1 < memSize →
    off = BitVec.ofNat 16 (wordAt s (phys (s.seg .ss) (s.reg .sp).toNat)) →
    sg = BitVec.ofNat 16 (wordAt s (phys (s.seg .ss) (s.reg .sp + 2).toNat)) →
    (.retNear ∈ s.cfg.simulated → exec .retNear s = .next ((s.setIp off).setReg .sp (s.reg .sp + 2))) ∧
    (.retNearImm ∈ s.cfg.simulated →
      exec (.retNearImm n) s = .next ((s.setIp off).setReg .sp (s.reg .sp + 2 + n))) ∧
    (phys (s.seg .ss) (s.reg .sp + 2).toNat + 1 < memSize →
      (.retFar ∈ s.cfg.simulated →
        exec .retFar s = .next (((s.setIp off).setSeg .cs sg).setReg .sp (s.reg .sp + 4))) ∧
      (.retFarImm ∈ s.cfg.simulated →
        exec (.retFarImm n) s = .next (((s.setIp off).setSeg .cs sg).setReg .sp (s.reg .sp + 4 + n))))

/-- The table of 47_control_transfer R379: opcode byte, record, kind, condition. -/
def Sys2Proof.Machine.conditionTable (s : State) (disp : Byte) : List (Byte × Instr × Kind × Bool) :=
  [(0x70, .jo disp, .jo, s.flag .OF), (0x71, .jno disp, .jno, !s.flag .OF),
   (0x72, .jb disp, .jb, s.flag .CF), (0x73, .jnb disp, .jnb, !s.flag .CF),
   (0x74, .je disp, .je, s.flag .ZF), (0x75, .jne disp, .jne, !s.flag .ZF),
   (0x76, .jbe disp, .jbe, s.flag .CF || s.flag .ZF), (0x77, .jnbe disp, .jnbe, !(s.flag .CF || s.flag .ZF))] ++
  [(0x78, .js disp, .js, s.flag .SF), (0x79, .jns disp, .jns, !s.flag .SF),
   (0x7A, .jp disp, .jp, s.flag .PF), (0x7B, .jnp disp, .jnp, !s.flag .PF),
   (0x7C, .jl disp, .jl, xor (s.flag .SF) (s.flag .OF)), (0x7D, .jnl disp, .jnl, !xor (s.flag .SF) (s.flag .OF)),
   (0x7E, .jle disp, .jle, s.flag .ZF || xor (s.flag .SF) (s.flag .OF)),
   (0x7F, .jnle disp, .jnle, !(s.flag .ZF || xor (s.flag .SF) (s.flag .OF)))]

/-- 47_control_transfer R365, R379 to R395: the sixteen short conditional jumps: which byte is which condition, the
target of a taken jump, the fall-through of one not taken, and that nothing but `ip` changes. -/
def Obligations.ConditionalJumpResult : Prop :=
  ∀ (s : State) (disp : Byte), ∀ e ∈ conditionTable s disp,
    Reads [e.1, disp] e.2.1 ∧
    (e.2.2.1 ∈ s.cfg.simulated → exec e.2.1 s =
      .next { s with ip := if e.2.2.2 then s.ip + 2 + disp.signExtend 16 else s.ip + 2 })

/-- 47_control_transfer R396 to R399: LOOP, LOOPZ, LOOPNZ decrement `cx` whether or not they branch; JCXZ leaves it;
with their bytes. -/
def Obligations.LoopResult : Prop :=
  ∀ (s : State) (disp : Byte) (taken fall : Word), taken = s.ip + 2 + disp.signExtend 16 →
    fall = s.ip + 2 →
    (Reads [0xE2, disp] (.loop disp) ∧ Reads [0xE1, disp] (.loopz disp) ∧ Reads [0xE0, disp] (.loopnz disp) ∧
      Reads [0xE3, disp] (.jcxz disp)) ∧
    (.loop ∈ s.cfg.simulated → exec (.loop disp) s =
      .next ((s.setIp (if s.reg .cx - 1 ≠ 0 then taken else fall)).setReg .cx (s.reg .cx - 1))) ∧
    (.loopz ∈ s.cfg.simulated → exec (.loopz disp) s =
      .next ((s.setIp (if s.reg .cx - 1 ≠ 0 ∧ s.flag .ZF = true then taken else fall)).setReg .cx
        (s.reg .cx - 1))) ∧
    (.loopnz ∈ s.cfg.simulated → exec (.loopnz disp) s =
      .next ((s.setIp (if s.reg .cx - 1 ≠ 0 ∧ s.flag .ZF = false then taken else fall)).setReg .cx
        (s.reg .cx - 1))) ∧
    (.jcxz ∈ s.cfg.simulated → exec (.jcxz disp) s =
      .next (s.setIp (if s.reg .cx = 0 then taken else fall)))

/-- The 8086 meaning of a software interrupt of a type: `ip` and `cs` are the vector's, IF and TF clear, and the flags
word, `cs` and the return offset stand below the old `ss:sp`. -/
def Sys2Proof.Machine.Interrupts (i : Instr) (s : State) (type : Nat) : Prop :=
  ExecNext i s fun t => t.ip = BitVec.ofNat 16 (wordAt s (4 * type)) ∧
    t.seg .cs = BitVec.ofNat 16 (wordAt s (4 * type + 2)) ∧ t.reg .sp = s.reg .sp - 6 ∧
    t.flag .IF = false ∧ t.flag .TF = false ∧
    BytesHold t .word (pushAddr s 1) (flagsWord s).toNat ∧ BytesHold t .word (pushAddr s 2) (s.seg .cs).toNat ∧
    BytesHold t .word (pushAddr s 3) (nextIp i s).toNat ∧
    Frame s t (((touchRegs [.sp]).add (touchSegs [.cs])).add ((touchFlags [.IF, .TF]).add (touchBytes
      (bytesOf .word (pushAddr s 1) ++ bytesOf .word (pushAddr s 2) ++ bytesOf .word (pushAddr s 3)))))

/-- 47_control_transfer R400 to R403, 48_processor_control R419: the 8086 meanings the spec gives for information, in
a model whose `SIMULATED` holds the kind (the model's choice, log 9; by default these kinds are stuck,
`ResetValues` and `UnsimulatedKindIsStuck`). With their bytes. -/
def Obligations.InterruptKindsInSimulated : Prop :=
  ((∀ type : Byte, Reads [0xCD, type] (.int type)) ∧ Reads [0xCC] .int3 ∧ Reads [0xCE] .into ∧ Reads [0xCF] .iret ∧
    ∀ (x y : BitVec 3) (op : Operand), op.isEsc = true → (∀ ea, op = .mem ea → ea.seg = none) →
      Reads ((0xD8 + x.setWidth 8) :: encodeRm y op) (.esc (x ++ y) op)) ∧
  ∀ s : State,
    (s.mem.wf = true → pushOk s 3 = true →
      (∀ type, .int ∈ s.cfg.simulated → Interrupts (.int type) s type.toNat) ∧
      (.int3 ∈ s.cfg.simulated → Interrupts .int3 s 3) ∧
      (.into ∈ s.cfg.simulated → s.flag .OF = true → Interrupts .into s 4)) ∧
    (.into ∈ s.cfg.simulated → s.flag .OF = false → exec .into s = .next { s with ip := s.ip + 1 }) ∧
    (.iret ∈ s.cfg.simulated → popOk s 3 = true →
      ExecNext .iret s fun t => t.ip = BitVec.ofNat 16 (wordAt s (popAddr s 1)) ∧
        t.seg .cs = BitVec.ofNat 16 (wordAt s (popAddr s 2)) ∧ t.reg .sp = s.reg .sp + 6 ∧
        (∀ e ∈ flagPlaces, t.flag e.1 = (wordAt s (popAddr s 3)).testBit e.2) ∧
        Frame s t (((touchRegs [.sp]).add (touchSegs [.cs])).add (touchFlags Flag.all))) ∧
    (∀ c op, .esc ∈ s.cfg.simulated → exec (.esc c op) s = .next (s.setIp (nextIp (.esc c op) s)))

/-! ### Processor control -/

/-- 48_processor_control R410 to R416: the seven flag instructions: their byte, the flag each writes, and nothing
else but `ip`. -/
def Obligations.FlagInstructionResult : Prop :=
  ∀ s : State,
    ∀ e ∈ [((0xF8 : Byte), Instr.clc, Kind.clc, Flag.CF, false), (0xF5, .cmc, .cmc, .CF, !s.flag .CF),
        (0xF9, .stc, .stc, .CF, true), (0xFC, .cld, .cld, .DF, false), (0xFD, .std, .std, .DF, true),
        (0xFA, .cli, .cli, .IF, false), (0xFB, .sti, .sti, .IF, true)],
      Reads [e.1] e.2.1 ∧
      (e.2.2.1 ∈ s.cfg.simulated → exec e.2.1 s = .next ((s.setIp (s.ip + 1)).setFlag e.2.2.2.1 e.2.2.2.2))

/-! ### Memory -/

/-- 20_memory R63, R64, R66, R67, R74: a word written and read back is the word; its low byte is at the lower address;
every other byte is as before; a word whose second byte is beyond the space raises `AddressRange` at that byte, read
or written. -/
def Obligations.MemoryWordAccess : Prop :=
  ∀ (s : State) (a : Nat) (v : Word),
    (s.mem.wf = true → a + 1 < memSize → ∃ ws, memWrite s .word a v.toNat = .ok ws ∧
      memRead (commit ws s) .word a = .ok v.toNat ∧ (commit ws s).byteAt a = loByte v ∧
      (commit ws s).byteAt (a + 1) = hiByte v ∧ ∀ b, b ≠ a → b ≠ a + 1 → (commit ws s).byteAt b = s.byteAt b) ∧
    (a = memSize - 1 → memRead s .word a = .error (.addressRange memSize none) ∧
      memWrite s .word a v.toNat = .error (.addressRange memSize none))

/-- 20_memory R63, R65, 70_reset_and_hazards R464: the host interface checks address and value; a refused write has no
next state, an accepted one changes that byte alone. -/
def Obligations.HostAccessIsChecked : Prop :=
  ∀ (s : State) (a v : Int),
    (0 ≤ a ∧ a < 1048576 → hostReadByte s a = .ok (s.byteAt a.toNat)) ∧
    (a < 0 ∨ 1048576 ≤ a → hostReadByte s a = .error (.addressRange a none)) ∧
    (a < 0 ∨ 1048576 ≤ a ∨ v < 0 ∨ 256 ≤ v → hostWriteByte s a v = .error (.addressRange a (some v))) ∧
    (s.mem.wf = true → 0 ≤ a ∧ a < 1048576 ∧ 0 ≤ v ∧ v < 256 → ∃ t, hostWriteByte s a v = .ok t ∧
      ((t.byteAt a.toNat).toNat : Int) = v ∧ (∀ b, b ≠ a.toNat → t.byteAt b = s.byteAt b) ∧
      t = { s with mem := t.mem })

/-- The records with a word r/m operand `op`, in every kind that reads or writes one (60_exceptions R434). -/
def Sys2Proof.Machine.wordOperandForms (op : Operand) (r : Reg16) (sr : Sreg) (imm : Imm) (count : ShiftCount)
    (l : Bool) : List Instr :=
  [.movRmReg op (.reg16 r), .movRmReg (.reg16 r) op, .movRmImm op imm, .movSregRm sr op, .movRmSreg op sr,
   .pushRm op, .popRm op, .xchgRmReg l op (.reg16 r)] ++
  [.addRmReg l op (.reg16 r), .addRmReg l (.reg16 r) op, .addRmImm l op imm, .adcRmReg l op (.reg16 r),
   .adcRmReg l (.reg16 r) op, .adcRmImm l op imm, .subRmReg l op (.reg16 r), .subRmReg l (.reg16 r) op,
   .subRmImm l op imm, .sbbRmReg l op (.reg16 r), .sbbRmReg l (.reg16 r) op, .sbbRmImm l op imm,
   .cmpRmReg op (.reg16 r), .cmpRmReg (.reg16 r) op, .cmpRmImm op imm] ++
  [.incRm l op, .decRm l op, .neg l op, .mul op, .imul op, .div op, .idiv op, .not l op] ++
  [.andRmReg l op (.reg16 r), .andRmReg l (.reg16 r) op, .andRmImm l op imm, .orRmReg l op (.reg16 r),
   .orRmReg l (.reg16 r) op, .orRmImm l op imm, .xorRmReg l op (.reg16 r), .xorRmReg l (.reg16 r) op,
   .xorRmImm l op imm, .testRmReg op (.reg16 r), .testRmImm op imm] ++
  [.shl op count, .shr op count, .sar op count, .rol op count, .ror op count, .rcl op count, .rcr op count] ++
  [.callNearInd op, .jmpNearInd op]

/-- A record of a kind in `SIMULATED` raises `AddressRange(0x100000)`: no next state. -/
def Sys2Proof.Machine.RaisesAtTheEnd (s : State) (i : Instr) : Prop :=
  ∀ k, recordKind i = some k → k ∈ s.cfg.simulated → exec i s = .fault (.addressRange 0x100000 none)

/-- 20_memory R64, R66, 41_operands_addressing R189, 60_exceptions R434, R440: each access R434 lists raises
`AddressRange(0x100000)` where its word begins at physical `0xFFFFF`: a word r/m operand or direct address in every
kind that has one (a shift by a count of 0 among them: log 11), a pushed or popped word, an element of a word string;
and a far pointer whose four bytes reach beyond the space. -/
def Obligations.AccessBeyondTheSpaceFaults : Prop :=
  ∀ (s : State) (r : Reg16) (sr : Sreg) (ea : Ea) (op : Operand) (imm : Imm) (count : ShiftCount) (l : Bool)
    (n sg : Word),
    (eaPhys s ea = 0xFFFFF → ea.size = some .word →
      ∀ i ∈ wordOperandForms (.mem ea) r sr imm count l ++ [.movAccMem .word ea, .movMemAcc .word ea],
        RaisesAtTheEnd s i) ∧
    (0xFFFFD ≤ eaPhys s ea → ∀ i ∈ [Instr.lds r ea, .les r ea, .callFarInd ea, .jmpFarInd ea], RaisesAtTheEnd s i) ∧
    (phys (s.seg .ss) (s.reg .sp - 2).toNat = 0xFFFFF →
      ∀ i ∈ [Instr.pushRm op, .pushReg r, .pushSreg sr, .pushf, .callNear n, .callNearInd op, .callFar sg n,
        .callFarInd ea], RaisesAtTheEnd s i) ∧
    (phys (s.seg .ss) (s.reg .sp - 4).toNat = 0xFFFFF →
      ∀ i ∈ [Instr.callFar sg n, .callFarInd ea], RaisesAtTheEnd s i) ∧
    (phys (s.seg .ss) (s.reg .sp).toNat = 0xFFFFF →
      ∀ i ∈ [Instr.popRm op, .popReg r, .popSreg sr, .popf, .retNear, .retNearImm n, .retFar, .retFarImm n],
        RaisesAtTheEnd s i) ∧
    (phys (s.seg .ss) (s.reg .sp + 2).toNat = 0xFFFFF →
      ∀ i ∈ [Instr.retFar, .retFarImm n], RaisesAtTheEnd s i) ∧
    (∀ rp : Rep, rp = .none ∨ s.reg .cx ≠ 0 →
      (phys (s.seg .ds) (s.reg .si).toNat = 0xFFFFF →
        ∀ i ∈ [Instr.movs .word rp, .cmps .word rp, .lods .word rp], RaisesAtTheEnd s i) ∧
      (phys (s.seg .es) (s.reg .di).toNat = 0xFFFFF →
        ∀ i ∈ [Instr.movs .word rp, .cmps .word rp, .scas .word rp, .stos .word rp], RaisesAtTheEnd s i))

/-- The base registers of each category (41_operands_addressing R185) and its default segment (R187). -/
def Sys2Proof.Machine.addressTable : List (EaKind × List Reg16 × Sreg) :=
  [(.bxSi, [.bx, .si], .ds), (.bxDi, [.bx, .di], .ds), (.bpSi, [.bp, .si], .ss), (.bpDi, [.bp, .di], .ss),
   (.si, [.si], .ds), (.di, [.di], .ds), (.bx, [.bx], .ds), (.bp, [.bp], .ss), (.direct, [], .ds)]

/-- 20_memory R70, 41_operands_addressing R185 to R188: the offset of an effective address is the sum of its category's
base registers and the displacement, reduced modulo 65536 with `EA_WRAP16`; its physical address is sixteen times the
segment plus the offset modulo 2^20, the segment being the override's, or else the category's default. The
displacement is signed: one byte is extended by its sign (30_encoding R96, 40_decoder_prefixes R155). And where the
pushes and the pops of one step stand (43_data_transfer R247). -/
def Obligations.AddressFormation : Prop :=
  (∀ sg off : Word, phys sg off.toNat = (sg.toNat * 16 + off.toNat) % 1048576) ∧
  (∀ k : EaKind, ∃ e ∈ addressTable, e.1 = k) ∧ memSize = 1048576 ∧
  (Disp.none.value = 0 ∧ (∀ b : Byte, (Disp.d8 b).value = b.toInt) ∧ ∀ v : Word, (Disp.d16 v).value = v.toInt) ∧
  (∀ (s : State) (k : Nat), pushAddr s k = phys (s.seg .ss) (s.reg .sp - BitVec.ofNat 16 (2 * k)).toNat ∧
    popAddr s (k + 1) = phys (s.seg .ss) (s.reg .sp + BitVec.ofNat 16 (2 * k)).toNat) ∧
  ∀ (s : State) (ea : Ea) (raw : Int), ∀ e ∈ addressTable, ea.kind = e.1 →
    raw = ((e.2.1.map fun r => (s.reg r).toNat).sum : Nat) + ea.disp.value →
    (s.cfg.eaWrap16 = true → eaOffset s ea = raw % 65536) ∧ (s.cfg.eaWrap16 = false → eaOffset s ea = raw) ∧
    (∀ sr, ea.seg = some sr ∨ ea.seg = none ∧ sr = e.2.2 →
      (eaPhys s ea : Int) = ((s.seg sr).toNat * 16 + eaOffset s ea) % 1048576) ∧
    eaPhys s ea < memSize

/-! ### Whole-machine rules -/

/-- 10_state R23, R25: only MOV to a segment register, POP of one, LDS, LES and the far transfers write a segment
register; only CLI, STI and POPF write IF, only CLD, STD and POPF write DF, only POPF writes TF (the interrupt kinds,
where a model simulates them, beside). -/
def Obligations.OnlyTheseKindsWriteSegmentsAndControlFlags : Prop :=
  ∀ (s t : State) (i : Instr) (k : Kind), recordKind i = some k → exec i s = .next t →
    (k ∉ [Kind.movSregRm, .popSreg, .lds, .les, .callFar, .callFarInd, .jmpFar, .jmpFarInd, .retFar, .retFarImm,
      .int, .int3, .into, .iret] → t.segs = s.segs) ∧
    (k ∉ [Kind.cli, .sti, .popf, .int, .int3, .into, .iret] → t.flag .IF = s.flag .IF) ∧
    (k ∉ [Kind.cld, .std, .popf, .iret] → t.flag .DF = s.flag .DF) ∧
    (k ∉ [Kind.popf, .int, .int3, .into, .iret] → t.flag .TF = s.flag .TF)

/-- 60_exceptions R434, R435, R436: the exceptions in a step are exactly those of the spec: every record either gives a
next state, or raises `AddressRange`, or is a DIV or an IDIV that raises `DivideError`. -/
def Obligations.OnlyTheseExceptions : Prop :=
  ∀ (s : State) (i : Instr) (k : Kind), recordKind i = some k →
    (∃ t, exec i s = .next t) ∨ (∃ a, exec i s = .fault (.addressRange a none) ∧ memSize ≤ a) ∨
    ((k = .div ∨ k = .idiv) ∧ exec i s = .fault .divideError)

/-- 10_state R38 to R40: applying the diff of a step, as the ordered entries the spec writes, gives the state the step
gives, wherever the step answers a non-empty diff and no undefined flag is drawn. -/
def Obligations.DiffAppliesToTheNextState : Prop :=
  ∀ (s t : State) (i : Instr) (k : Kind) (es : List Entry), s.cfg.undefFlags = .unchanged → recordKind i = some k →
    k ∈ s.cfg.simulated → stepEntries i s = .ok es → es ≠ [] → exec i s = .next t → applyEntries es s = t
end
end

