-- ==== Sys2Proof/Laws/Decode.lean ====
section
/-! SUPPORT. The parts of the decoder and the encoder: register catalogs and their inverses, the fields of a ModRM
byte, words in little-endian order, and the decoding of an encoded r/m operand. -/

namespace Sys2Proof

/-! ### Catalogs (30_encoding R97, R98, R91) -/

@[simp] theorem Reg8.ofCode_code (r : Reg8) : Reg8.ofCode r.code = r := by cases r <;> rfl
@[simp] theorem Reg16.ofCode_code (r : Reg16) : Reg16.ofCode r.code = r := by cases r <;> rfl
@[simp] theorem Sreg.ofCode_code (r : Sreg) : Sreg.ofCode r.code = r := by cases r <;> rfl

@[simp] theorem Reg8.code_ofCode : ∀ n : BitVec 3, (Reg8.ofCode n).code = n := by decide
@[simp] theorem Reg16.code_ofCode : ∀ n : BitVec 3, (Reg16.ofCode n).code = n := by decide
@[simp] theorem Sreg.code_ofCode : ∀ n : BitVec 2, (Sreg.ofCode n).code = n := by decide

/-! ### The ModRM byte (30_encoding R92) -/

@[simp] theorem ModRM.mod_byte : ∀ (m : BitVec 2) (r n : BitVec 3), ModRM.mod (ModRM.byte m r n) = m := by decide
@[simp] theorem ModRM.reg_byte : ∀ (m : BitVec 2) (r n : BitVec 3), ModRM.reg (ModRM.byte m r n) = r := by decide
@[simp] theorem ModRM.rm_byte : ∀ (m : BitVec 2) (r n : BitVec 3), ModRM.rm (ModRM.byte m r n) = n := by decide

/-! ### Words (40_decoder_prefixes R156) -/

/-- A word is its two bytes. -/
@[simp] theorem concatBytes_hiByte_loByte (w : Word) : concatBytes (hiByte w) (loByte w) = w := by
  refine BitVec.eq_of_getLsbD_eq fun i h => ?_
  rw [concatBytes, BitVec.getLsbD_append, hiByte, loByte, BitVec.getLsbD_extractLsb', BitVec.getLsbD_extractLsb']
  by_cases h8 : i < 8
  · simp [h8]
  · simp only [h8, if_false]
    have : i - 8 < 8 := by omega
    simp [this, show 8 + (i - 8) = i by omega]

@[simp] theorem readWord_encodeWord (w : Word) (rest : List Byte) :
    readWord (encodeWord w ++ rest) = .ok (w, rest) := by
  simp [readWord, encodeWord]

@[simp] theorem readByte_cons (b : Byte) (rest : List Byte) : readByte (b :: rest) = .ok (b, rest) := rfl

@[simp] theorem encodeWord_length (w : Word) : (encodeWord w).length = 2 := rfl

/-! ### Operands (30_encoding R95, R96, 40_decoder_prefixes R154) -/

/-- The `rm` field of a category is not 6 where there is no displacement. -/
theorem EaKind.code_ne_six {k : EaKind} (h : k ≠ .bp) (g : k ≠ .direct) : k.code ≠ 6 := by
  cases k <;> first | decide | exact absurd rfl h | exact absurd rfl g

/-- A category is read back from its `rm` field, at any `mod` it can have. -/
theorem EaKind.ofCode_code {k : EaKind} {m : BitVec 2} (h : k = .direct → m = 0) (g : k = .bp → m ≠ 0) :
    EaKind.ofCode m k.code = k := by
  cases k <;> simp_all [EaKind.ofCode, EaKind.code]

/-- Decoding the encoding of an effective address, with the override and the size the context gives it. -/
theorem decodeEa_encodeEa (reg : BitVec 3) (ea : Ea) (rest : List Byte) (h : ea.wf = true) :
    ∃ m tail, encodeEa reg ea = m :: tail ∧ ModRM.reg m = reg ∧ ModRM.mod m ≠ 3 ∧
      decodeEa ea.seg ea.size m (tail ++ rest) = .ok (ea, rest) := by
  obtain ⟨kind, disp, seg, size⟩ := ea
  cases disp with
  | none =>
    have hd : kind ≠ .direct := by rintro rfl; simp [Ea.wf] at h
    have hb : kind ≠ .bp := by rintro rfl; simp [Ea.wf] at h
    refine ⟨_, [], rfl, ModRM.reg_byte .., by rw [ModRM.mod_byte]; decide, ?_⟩
    have h6 : kind.code ≠ 6#3 := EaKind.code_ne_six hb hd
    have e : EaKind.ofCode 0#2 kind.code = kind := EaKind.ofCode_code (fun _ => rfl) fun e => absurd e hb
    simp [decodeEa, decodeDisp, h6, e]
  | d8 b =>
    have hd : kind ≠ .direct := by rintro rfl; simp [Ea.wf] at h
    refine ⟨_, [b], rfl, ModRM.reg_byte .., by rw [ModRM.mod_byte]; decide, ?_⟩
    have e : EaKind.ofCode 1#2 kind.code = kind := EaKind.ofCode_code (fun e => absurd e hd) fun _ => by decide
    simp [decodeEa, decodeDisp, e]
  | d16 w =>
    refine ⟨_, encodeWord w, rfl, ModRM.reg_byte .., ?_, ?_⟩
    · rw [ModRM.mod_byte]; split <;> decide
    · by_cases hd : kind = .direct
      · subst hd
        simp [decodeEa, decodeDisp, encodeWord, EaKind.code, EaKind.ofCode]
      · have e : EaKind.ofCode 2#2 kind.code = kind :=
          EaKind.ofCode_code (fun e => absurd e hd) fun _ => by decide
        simp [decodeEa, decodeDisp, encodeWord, hd, e]

/-- Decoding the encoding of a register operand. -/
theorem decodeRm_encodeReg (seg : Option Sreg) (w : Width) (reg n : BitVec 3) (rest : List Byte) :
    decodeRm seg (some w) (ModRM.byte 3 reg n) rest = .ok (regOperand w n, rest) := by
  simp [decodeRm]

/-- Decoding the encoding of an r/m operand of a width, with the override it has. -/
theorem decodeRm_encodeRm (w : Width) (reg : BitVec 3) (op : Operand) (rest : List Byte) (h : op.isAt w = true) :
    ∃ m tail, encodeRm reg op = m :: tail ∧ ModRM.reg m = reg ∧
      decodeRm (op.ea?.bind Ea.seg) (some w) m (tail ++ rest) = .ok (op, rest) := by
  cases op with
  | reg8 r =>
    have hw : w = .byte := by simpa [Operand.isAt] using h
    subst hw
    exact ⟨_, [], rfl, ModRM.reg_byte .., by simp [decodeRm, regOperand]⟩
  | reg16 r =>
    have hw : w = .word := by simpa [Operand.isAt] using h
    subst hw
    exact ⟨_, [], rfl, ModRM.reg_byte .., by simp [decodeRm, regOperand]⟩
  | mem ea =>
    have hs : ea.wf = true ∧ ea.size = some w := by simpa [Operand.isAt] using h
    obtain ⟨m, tail, e, hr, hm, hd⟩ := decodeEa_encodeEa reg ea rest hs.1
    refine ⟨m, tail, e, hr, ?_⟩
    rw [hs.2] at hd
    have e : (Operand.mem ea).ea?.bind Ea.seg = ea.seg := rfl
    rw [e, decodeRm, if_neg hm, hd]

/-! ### Reading an unprefixed body (40_decoder_prefixes R140, R157) -/

/-- An opcode byte and a body that decodes: the record of the body, whatever `LOCKABLE` is. -/
theorem decodeOne_body (lk : Lockable) {b : Byte} {bs rest : List Byte} {f : Format} {i : Instr}
    (h : firstByte b = .body f) (d : decodeBody none f bs = .ok (i, rest)) : decodeOne lk (b :: bs) = .ok (i, rest) := by
  simp [decodeOne, decodeFrom, h, d, Ctx.finish, Ctx.empty]
  rfl

/-- A row with one r/m operand, which has no override. -/
theorem decodeBody_rm {sel : BitVec 3 → Ext} {ext : BitVec 3} {w : Width} {f : Operand → Instr} {op : Operand}
    (rest : List Byte) (h : sel ext = .rm (some w) f) (ho : op.isAt w = true) (hs : op.ea?.bind Ea.seg = none) :
    decodeBody none (.modrm sel) (encodeRm ext op ++ rest) = .ok (f op, rest) := by
  obtain ⟨m, tail, e, hr, hd⟩ := decodeRm_encodeRm w ext op rest ho
  rw [hs] at hd
  simp [decodeBody, e, readByte, hr, h, decodeExt, hd, bind, Except.bind, pure, Except.pure]

/-- A row with an r/m operand and an immediate byte. -/
theorem decodeBody_rmImm8 {sel : BitVec 3 → Ext} {ext : BitVec 3} {w : Width} {f : Operand → Byte → Instr}
    {op : Operand} (b : Byte) (rest : List Byte) (h : sel ext = .rmImm8 w f) (ho : op.isAt w = true)
    (hs : op.ea?.bind Ea.seg = none) :
    decodeBody none (.modrm sel) (encodeRm ext op ++ b :: rest) = .ok (f op b, rest) := by
  obtain ⟨m, tail, e, hr, hd⟩ := decodeRm_encodeRm w ext op (b :: rest) ho
  rw [hs] at hd
  simp [decodeBody, e, readByte, hr, h, decodeExt, hd, bind, Except.bind, pure, Except.pure]

/-- A row with a word r/m operand and an immediate word. -/
theorem decodeBody_rmImm16 {sel : BitVec 3 → Ext} {ext : BitVec 3} {f : Operand → Word → Instr} {op : Operand}
    (v : Word) (rest : List Byte) (h : sel ext = .rmImm16 f) (ho : op.isAt .word = true)
    (hs : op.ea?.bind Ea.seg = none) :
    decodeBody none (.modrm sel) (encodeRm ext op ++ loByte v :: hiByte v :: rest) = .ok (f op v, rest) := by
  obtain ⟨m, tail, e, hr, hd⟩ := decodeRm_encodeRm .word ext op (loByte v :: hiByte v :: rest) ho
  rw [hs] at hd
  simp [decodeBody, e, readByte, hr, h, decodeExt, hd, readWord, bind, Except.bind, pure, Except.pure]

/-- A row with a memory operand of no size, which has no override. -/
theorem decodeBody_memOnly {sel : BitVec 3 → Ext} {ext : BitVec 3} {f : Ea → Instr} {ea : Ea} (rest : List Byte)
    (h : sel ext = .memOnly f) (hn : ea.isNull = true) (hs : ea.seg = none) :
    decodeBody none (.modrm sel) (encodeEa ext ea ++ rest) = .ok (f ea, rest) := by
  have hw : ea.wf = true ∧ ea.size = none := by simpa [Ea.isNull] using hn
  obtain ⟨m, tail, e, hr, hm, hd⟩ := decodeEa_encodeEa ext ea rest hw.1
  rw [hs, hw.2] at hd
  simpa [decodeBody, e, readByte, hr, h, decodeExt, hd, bind, Except.bind, pure, Except.pure] using hm

/-! ### Lengths (30_encoding R94) -/

theorem encodeEa_length (reg : BitVec 3) (ea : Ea) : (encodeEa reg ea).length = ea.length := by
  obtain ⟨kind, disp, seg, size⟩ := ea
  cases disp <;> rfl

theorem encodeRm_length (reg : BitVec 3) (op : Operand) : (encodeRm reg op).length = op.rmLength := by
  cases op with
  | reg8 r => rfl
  | reg16 r => rfl
  | mem ea => exact encodeEa_length reg ea

theorem encodeImm_length (imm : Imm) : (encodeImm imm).length = imm.size := by cases imm <;> rfl

theorem Disp.size_le (d : Disp) : d.size ≤ 2 := by cases d <;> simp [Disp.size]
theorem Imm.size_le (imm : Imm) : imm.size ≤ 2 := by cases imm <;> simp [Imm.size]
theorem Ea.length_le (ea : Ea) : ea.length ≤ 3 := by
  have := ea.disp.size_le
  unfold Ea.length; omega
theorem Operand.rmLength_le (op : Operand) : op.rmLength ≤ 3 := by
  cases op with
  | reg8 r => simp [Operand.rmLength]
  | reg16 r => simp [Operand.rmLength]
  | mem ea => exact ea.length_le
theorem pairLength_le (a b : Operand) : pairLength a b ≤ 3 := by
  unfold pairLength
  split
  · exact b.rmLength_le
  · exact a.rmLength_le

/-- A record with no repeat has at most two folded prefix bytes: a lock and an override (30_encoding R131). -/
theorem Instr.prefixLength_le {i : Instr} (h : i.repField = .none) : i.prefixLength ≤ 2 := by
  rw [Instr.prefixLength, if_pos h]
  split <;> split <;> omega

end Sys2Proof
end

