-- ==== Sys2Proof/Laws/State.lean ====
section
/-! SUPPORT. One lemma per field per update of State, the register files read after a write, and the fields of the
two conditions. -/

namespace Sys2Proof.Machine

/-! ### Register files -/

@[simp] theorem Regs.get_set_same (x : Regs) (r : Reg16) (v : Word) : (x.set r v).get r = v := by
  cases r <;> rfl

theorem Regs.get_set_other (x : Regs) {r q : Reg16} (v : Word) (h : q ≠ r) : (x.set r v).get q = x.get q := by
  cases r <;> cases q <;> first | rfl | exact absurd rfl h

theorem Regs.get_set (x : Regs) (r q : Reg16) (v : Word) :
    (x.set r v).get q = if q = r then v else x.get q := by
  by_cases h : q = r
  · subst h; simp
  · simp [h, Regs.get_set_other x v h]

/-- Two register files are equal when every register is. -/
theorem Regs.ext_get {x y : Regs} (h : ∀ r, x.get r = y.get r) : x = y := by
  cases x; cases y
  simp only [Regs.mk.injEq]
  exact ⟨h .ax, h .bx, h .cx, h .dx, h .sp, h .bp, h .si, h .di⟩

@[simp] theorem Segs.get_set_same (x : Segs) (r : Sreg) (v : Word) : (x.set r v).get r = v := by
  cases r <;> rfl

theorem Segs.get_set_other (x : Segs) {r q : Sreg} (v : Word) (h : q ≠ r) : (x.set r v).get q = x.get q := by
  cases r <;> cases q <;> first | rfl | exact absurd rfl h

theorem Segs.get_set (x : Segs) (r q : Sreg) (v : Word) :
    (x.set r v).get q = if q = r then v else x.get q := by
  by_cases h : q = r
  · subst h; simp
  · simp [h, Segs.get_set_other x v h]

@[simp] theorem Flags.get_set_same (x : Flags) (f : Flag) (b : Bool) : (x.set f b).get f = b := by
  cases f <;> rfl

theorem Flags.get_set_other (x : Flags) {f g : Flag} (b : Bool) (h : g ≠ f) : (x.set f b).get g = x.get g := by
  cases f <;> cases g <;> first | rfl | exact absurd rfl h

theorem Flags.get_set (x : Flags) (f g : Flag) (b : Bool) :
    (x.set f b).get g = if g = f then b else x.get g := by
  by_cases h : g = f
  · subst h; simp
  · simp [h, Flags.get_set_other x b h]

/-! ### setIp -/

@[simp] theorem State.setIp_ip (s : State) (v : Word) : (s.setIp v).ip = v := rfl
@[simp] theorem State.setIp_regs (s : State) (v : Word) : (s.setIp v).regs = s.regs := rfl
@[simp] theorem State.setIp_segs (s : State) (v : Word) : (s.setIp v).segs = s.segs := rfl
@[simp] theorem State.setIp_flags (s : State) (v : Word) : (s.setIp v).flags = s.flags := rfl
@[simp] theorem State.setIp_mem (s : State) (v : Word) : (s.setIp v).mem = s.mem := rfl
@[simp] theorem State.setIp_program (s : State) (v : Word) : (s.setIp v).program = s.program := rfl
@[simp] theorem State.setIp_cfg (s : State) (v : Word) : (s.setIp v).cfg = s.cfg := rfl
@[simp] theorem State.setIp_draws (s : State) (v : Word) : (s.setIp v).draws = s.draws := rfl
@[simp] theorem State.setIp_condition (s : State) (v : Word) : (s.setIp v).condition = s.condition := rfl
@[simp] theorem State.setIp_reg (s : State) (v : Word) (q : Reg16) : (s.setIp v).reg q = s.reg q := rfl
@[simp] theorem State.setIp_reg8 (s : State) (v : Word) (q : Reg8) : (s.setIp v).reg8 q = s.reg8 q := rfl
@[simp] theorem State.setIp_seg (s : State) (v : Word) (q : Sreg) : (s.setIp v).seg q = s.seg q := rfl
@[simp] theorem State.setIp_flag (s : State) (v : Word) (f : Flag) : (s.setIp v).flag f = s.flag f := rfl
@[simp] theorem State.setIp_byteAt (s : State) (v : Word) (a : Nat) : (s.setIp v).byteAt a = s.byteAt a := rfl

/-! ### setReg -/

@[simp] theorem State.setReg_ip (s : State) (r : Reg16) (v : Word) : (s.setReg r v).ip = s.ip := rfl
@[simp] theorem State.setReg_regs (s : State) (r : Reg16) (v : Word) : (s.setReg r v).regs = s.regs.set r v := rfl
@[simp] theorem State.setReg_segs (s : State) (r : Reg16) (v : Word) : (s.setReg r v).segs = s.segs := rfl
@[simp] theorem State.setReg_flags (s : State) (r : Reg16) (v : Word) : (s.setReg r v).flags = s.flags := rfl
@[simp] theorem State.setReg_mem (s : State) (r : Reg16) (v : Word) : (s.setReg r v).mem = s.mem := rfl
@[simp] theorem State.setReg_program (s : State) (r : Reg16) (v : Word) : (s.setReg r v).program = s.program := rfl
@[simp] theorem State.setReg_cfg (s : State) (r : Reg16) (v : Word) : (s.setReg r v).cfg = s.cfg := rfl
@[simp] theorem State.setReg_draws (s : State) (r : Reg16) (v : Word) : (s.setReg r v).draws = s.draws := rfl
@[simp] theorem State.setReg_condition (s : State) (r : Reg16) (v : Word) :
    (s.setReg r v).condition = s.condition := rfl
@[simp] theorem State.setReg_seg (s : State) (r : Reg16) (v : Word) (q : Sreg) :
    (s.setReg r v).seg q = s.seg q := rfl
@[simp] theorem State.setReg_flag (s : State) (r : Reg16) (v : Word) (f : Flag) :
    (s.setReg r v).flag f = s.flag f := rfl
@[simp] theorem State.setReg_byteAt (s : State) (r : Reg16) (v : Word) (a : Nat) :
    (s.setReg r v).byteAt a = s.byteAt a := rfl

@[simp] theorem State.setReg_reg (s : State) (r q : Reg16) (v : Word) :
    (s.setReg r v).reg q = if q = r then v else s.reg q := Regs.get_set s.regs r q v

/-! ### setReg8 (10_state R21) -/

@[simp] theorem State.setReg8_ip (s : State) (r : Reg8) (v : Byte) : (s.setReg8 r v).ip = s.ip := rfl
@[simp] theorem State.setReg8_segs (s : State) (r : Reg8) (v : Byte) : (s.setReg8 r v).segs = s.segs := rfl
@[simp] theorem State.setReg8_flags (s : State) (r : Reg8) (v : Byte) : (s.setReg8 r v).flags = s.flags := rfl
@[simp] theorem State.setReg8_mem (s : State) (r : Reg8) (v : Byte) : (s.setReg8 r v).mem = s.mem := rfl
@[simp] theorem State.setReg8_program (s : State) (r : Reg8) (v : Byte) : (s.setReg8 r v).program = s.program := rfl
@[simp] theorem State.setReg8_cfg (s : State) (r : Reg8) (v : Byte) : (s.setReg8 r v).cfg = s.cfg := rfl
@[simp] theorem State.setReg8_draws (s : State) (r : Reg8) (v : Byte) : (s.setReg8 r v).draws = s.draws := rfl
@[simp] theorem State.setReg8_condition (s : State) (r : Reg8) (v : Byte) :
    (s.setReg8 r v).condition = s.condition := rfl
@[simp] theorem State.setReg8_seg (s : State) (r : Reg8) (v : Byte) (q : Sreg) :
    (s.setReg8 r v).seg q = s.seg q := rfl
@[simp] theorem State.setReg8_flag (s : State) (r : Reg8) (v : Byte) (f : Flag) :
    (s.setReg8 r v).flag f = s.flag f := rfl
@[simp] theorem State.setReg8_byteAt (s : State) (r : Reg8) (v : Byte) (a : Nat) :
    (s.setReg8 r v).byteAt a = s.byteAt a := rfl

/-- A write of a byte half reaches no other 16-bit register. -/
theorem State.setReg8_reg_other (s : State) (r : Reg8) (v : Byte) {q : Reg16} (h : q ≠ r.parent) :
    (s.setReg8 r v).reg q = s.reg q := by
  simp [State.setReg8, h]

@[simp] theorem loByte_concatBytes (hi lo : Byte) : loByte (concatBytes hi lo) = lo := by
  ext i h
  simp only [loByte, concatBytes, BitVec.getElem_extractLsb', BitVec.getLsbD_append]
  simp [h, BitVec.getLsbD_eq_getElem]

@[simp] theorem hiByte_concatBytes (hi lo : Byte) : hiByte (concatBytes hi lo) = hi := by
  ext i h
  simp only [hiByte, concatBytes, BitVec.getElem_extractLsb', BitVec.getLsbD_append]
  simp [h, BitVec.getLsbD_eq_getElem]

@[simp] theorem concatBytes_hi_lo (w : Word) : concatBytes (hiByte w) (loByte w) = w := by
  refine BitVec.eq_of_getLsbD_eq fun i h => ?_
  rw [concatBytes, BitVec.getLsbD_append, hiByte, loByte, BitVec.getLsbD_extractLsb', BitVec.getLsbD_extractLsb']
  by_cases h8 : i < 8
  · simp [h8]
  · simp only [h8, if_false]
    have : i - 8 < 8 := by omega
    simp [this, show 8 + (i - 8) = i by omega]

/-- A byte half after a write of a byte half: the one written, and every other one kept (10_state R21). -/
theorem State.setReg8_reg8 (s : State) (r q : Reg8) (v : Byte) :
    (s.setReg8 r v).reg8 q = if q = r then v else s.reg8 q := by
  cases r <;> cases q <;> simp [State.setReg8, State.reg8, Reg8.parent, Reg8.isHigh]

/-! ### setSeg -/

@[simp] theorem State.setSeg_ip (s : State) (r : Sreg) (v : Word) : (s.setSeg r v).ip = s.ip := rfl
@[simp] theorem State.setSeg_regs (s : State) (r : Sreg) (v : Word) : (s.setSeg r v).regs = s.regs := rfl
@[simp] theorem State.setSeg_segs (s : State) (r : Sreg) (v : Word) : (s.setSeg r v).segs = s.segs.set r v := rfl
@[simp] theorem State.setSeg_flags (s : State) (r : Sreg) (v : Word) : (s.setSeg r v).flags = s.flags := rfl
@[simp] theorem State.setSeg_mem (s : State) (r : Sreg) (v : Word) : (s.setSeg r v).mem = s.mem := rfl
@[simp] theorem State.setSeg_program (s : State) (r : Sreg) (v : Word) : (s.setSeg r v).program = s.program := rfl
@[simp] theorem State.setSeg_cfg (s : State) (r : Sreg) (v : Word) : (s.setSeg r v).cfg = s.cfg := rfl
@[simp] theorem State.setSeg_draws (s : State) (r : Sreg) (v : Word) : (s.setSeg r v).draws = s.draws := rfl
@[simp] theorem State.setSeg_condition (s : State) (r : Sreg) (v : Word) :
    (s.setSeg r v).condition = s.condition := rfl
@[simp] theorem State.setSeg_reg (s : State) (r : Sreg) (v : Word) (q : Reg16) :
    (s.setSeg r v).reg q = s.reg q := rfl
@[simp] theorem State.setSeg_reg8 (s : State) (r : Sreg) (v : Word) (q : Reg8) :
    (s.setSeg r v).reg8 q = s.reg8 q := rfl
@[simp] theorem State.setSeg_flag (s : State) (r : Sreg) (v : Word) (f : Flag) :
    (s.setSeg r v).flag f = s.flag f := rfl
@[simp] theorem State.setSeg_byteAt (s : State) (r : Sreg) (v : Word) (a : Nat) :
    (s.setSeg r v).byteAt a = s.byteAt a := rfl

@[simp] theorem State.setSeg_seg (s : State) (r q : Sreg) (v : Word) :
    (s.setSeg r v).seg q = if q = r then v else s.seg q := Segs.get_set s.segs r q v

/-! ### setFlag -/

@[simp] theorem State.setFlag_ip (s : State) (f : Flag) (b : Bool) : (s.setFlag f b).ip = s.ip := rfl
@[simp] theorem State.setFlag_regs (s : State) (f : Flag) (b : Bool) : (s.setFlag f b).regs = s.regs := rfl
@[simp] theorem State.setFlag_segs (s : State) (f : Flag) (b : Bool) : (s.setFlag f b).segs = s.segs := rfl
@[simp] theorem State.setFlag_flags (s : State) (f : Flag) (b : Bool) :
    (s.setFlag f b).flags = s.flags.set f b := rfl
@[simp] theorem State.setFlag_mem (s : State) (f : Flag) (b : Bool) : (s.setFlag f b).mem = s.mem := rfl
@[simp] theorem State.setFlag_program (s : State) (f : Flag) (b : Bool) :
    (s.setFlag f b).program = s.program := rfl
@[simp] theorem State.setFlag_cfg (s : State) (f : Flag) (b : Bool) : (s.setFlag f b).cfg = s.cfg := rfl
@[simp] theorem State.setFlag_draws (s : State) (f : Flag) (b : Bool) : (s.setFlag f b).draws = s.draws := rfl
@[simp] theorem State.setFlag_condition (s : State) (f : Flag) (b : Bool) :
    (s.setFlag f b).condition = s.condition := rfl
@[simp] theorem State.setFlag_reg (s : State) (f : Flag) (b : Bool) (q : Reg16) :
    (s.setFlag f b).reg q = s.reg q := rfl
@[simp] theorem State.setFlag_reg8 (s : State) (f : Flag) (b : Bool) (q : Reg8) :
    (s.setFlag f b).reg8 q = s.reg8 q := rfl
@[simp] theorem State.setFlag_seg (s : State) (f : Flag) (b : Bool) (q : Sreg) :
    (s.setFlag f b).seg q = s.seg q := rfl
@[simp] theorem State.setFlag_byteAt (s : State) (f : Flag) (b : Bool) (a : Nat) :
    (s.setFlag f b).byteAt a = s.byteAt a := rfl

@[simp] theorem State.setFlag_flag (s : State) (f g : Flag) (b : Bool) :
    (s.setFlag f b).flag g = if g = f then b else s.flag g := Flags.get_set s.flags f g b

/-! ### setByte -/

theorem State.setByte_inRange (s : State) {a : Nat} (v : Byte) (h : a < memSize) :
    s.setByte a v = { s with mem := s.mem.write a v } := if_pos h

@[simp] theorem State.setByte_ip (s : State) (a : Nat) (v : Byte) : (s.setByte a v).ip = s.ip := by
  unfold State.setByte; split <;> rfl
@[simp] theorem State.setByte_regs (s : State) (a : Nat) (v : Byte) : (s.setByte a v).regs = s.regs := by
  unfold State.setByte; split <;> rfl
@[simp] theorem State.setByte_segs (s : State) (a : Nat) (v : Byte) : (s.setByte a v).segs = s.segs := by
  unfold State.setByte; split <;> rfl
@[simp] theorem State.setByte_flags (s : State) (a : Nat) (v : Byte) : (s.setByte a v).flags = s.flags := by
  unfold State.setByte; split <;> rfl
@[simp] theorem State.setByte_program (s : State) (a : Nat) (v : Byte) : (s.setByte a v).program = s.program := by
  unfold State.setByte; split <;> rfl
@[simp] theorem State.setByte_cfg (s : State) (a : Nat) (v : Byte) : (s.setByte a v).cfg = s.cfg := by
  unfold State.setByte; split <;> rfl
@[simp] theorem State.setByte_draws (s : State) (a : Nat) (v : Byte) : (s.setByte a v).draws = s.draws := by
  unfold State.setByte; split <;> rfl
@[simp] theorem State.setByte_condition (s : State) (a : Nat) (v : Byte) :
    (s.setByte a v).condition = s.condition := by
  unfold State.setByte; split <;> rfl
@[simp] theorem State.setByte_reg (s : State) (a : Nat) (v : Byte) (q : Reg16) :
    (s.setByte a v).reg q = s.reg q := by simp [State.reg]
@[simp] theorem State.setByte_reg8 (s : State) (a : Nat) (v : Byte) (q : Reg8) :
    (s.setByte a v).reg8 q = s.reg8 q := by simp [State.reg8]
@[simp] theorem State.setByte_seg (s : State) (a : Nat) (v : Byte) (q : Sreg) :
    (s.setByte a v).seg q = s.seg q := by simp [State.seg]
@[simp] theorem State.setByte_flag (s : State) (a : Nat) (v : Byte) (f : Flag) :
    (s.setByte a v).flag f = s.flag f := by simp [State.flag]

/-! ### stuck and boot -/

@[simp] theorem stuck_condition (s : State) : (stuck s).condition = .stuck := rfl
@[simp] theorem stuck_mem (s : State) : (stuck s).mem = s.mem := rfl
@[simp] theorem stuck_program (s : State) : (stuck s).program = s.program := rfl
@[simp] theorem stuck_cfg (s : State) : (stuck s).cfg = s.cfg := rfl
@[simp] theorem boot_ip (s : State) (p : List Byte) : (s.boot p).ip = 0 := rfl
@[simp] theorem boot_program (s : State) (p : List Byte) : (s.boot p).program = p := rfl

end Sys2Proof.Machine
end

