-- ==== Sys2Proof/Laws/Memory.lean ====
section
/-! SUPPORT. Data memory: a read after a write, and the canonical form kept by every operation. -/

namespace Sys2Proof.Machine

/-- The canonical form from a higher address is one from any lower address. -/
theorem Memory.wfFrom_mono {lo hi : Nat} (h : lo ≤ hi) (m : Memory) (w : Memory.wfFrom hi m = true) :
    Memory.wfFrom lo m = true := by
  cases m with
  | nil => rfl
  | cons e m =>
    simp only [Memory.wfFrom, Bool.and_eq_true, decide_eq_true_eq] at w ⊢
    exact ⟨⟨⟨by omega, w.1.1.2⟩, w.1.2⟩, w.2⟩

/-- Below the first listed address every byte reads as zero. -/
theorem Memory.read_below {lo a : Nat} (m : Memory) (w : Memory.wfFrom lo m = true) (h : a < lo) : m.read a = 0#8 := by
  induction m generalizing lo with
  | nil => rfl
  | cons e m ih =>
    obtain ⟨b, v⟩ := e
    simp only [Memory.wfFrom, Bool.and_eq_true, decide_eq_true_eq] at w
    have hb : b ≠ a := by omega
    simpa [Memory.read, hb] using ih w.2 (by omega)

/-- The byte written is the byte read (20_memory R74 (a)). -/
theorem Memory.read_write_same {lo : Nat} (m : Memory) (w : Memory.wfFrom lo m = true) (a : Nat) (v : Byte) :
    (m.write a v).read a = v := by
  induction m generalizing lo with
  | nil =>
    by_cases hv : v = 0#8
    · simp [Memory.write, Memory.read, hv]
    · simp [Memory.write, Memory.read, hv]
  | cons e m ih =>
    obtain ⟨b, u⟩ := e
    simp only [Memory.wfFrom, Bool.and_eq_true, decide_eq_true_eq] at w
    by_cases h1 : a < b
    · by_cases hv : v = 0#8
      · have : Memory.read ((b, u) :: m) a = 0#8 :=
          Memory.read_below (lo := b) _ (by simp [Memory.wfFrom, w.1.1.2, w.1.2, w.2]) h1
        simpa [Memory.write, h1, hv] using this
      · simp [Memory.write, Memory.read, h1, hv]
    · by_cases h2 : a = b
      · subst h2
        by_cases hv : v = 0#8
        · simp [Memory.write, hv, Memory.read_below m w.2 (Nat.lt_succ_self a)]
        · simp [Memory.write, Memory.read, hv]
      · have hb : b ≠ a := fun h => h2 h.symm
        simpa [Memory.write, Memory.read, h1, h2, hb] using ih w.2

/-- A write leaves every other byte alone. -/
theorem Memory.read_write_other (m : Memory) {a b : Nat} (v : Byte) (h : b ≠ a) : (m.write a v).read b = m.read b := by
  induction m with
  | nil =>
    by_cases hv : v = 0#8
    · simp [Memory.write, hv]
    · simp [Memory.write, Memory.read, hv, Ne.symm h]
  | cons e m ih =>
    obtain ⟨c, u⟩ := e
    by_cases h1 : a < c
    · by_cases hv : v = 0#8 <;> simp [Memory.write, Memory.read, h1, hv, Ne.symm h]
    · by_cases h2 : a = c
      · subst h2
        by_cases hv : v = 0#8 <;> simp [Memory.write, Memory.read, hv, Ne.symm h]
      · simp [Memory.write, Memory.read, h1, h2, ih]

/-- A write inside the space keeps the canonical form, from any bound at or below it. -/
theorem Memory.wfFrom_write {lo : Nat} (m : Memory) (w : Memory.wfFrom lo m = true) {a : Nat} (v : Byte)
    (hlo : lo ≤ a) (ha : a < memSize) : Memory.wfFrom lo (m.write a v) = true := by
  induction m generalizing lo with
  | nil =>
    by_cases hv : v = 0#8
    · simp [Memory.write, hv, Memory.wfFrom]
    · simp only [Memory.write, hv, if_false, Memory.wfFrom]
      simp [hlo, ha, hv]
  | cons e m ih =>
    obtain ⟨b, u⟩ := e
    have w0 := w
    simp only [Memory.wfFrom, Bool.and_eq_true, decide_eq_true_eq] at w
    by_cases h1 : a < b
    · by_cases hv : v = 0#8
      · simpa [Memory.write, h1, hv] using w0
      · simp only [Memory.write, h1, hv, if_true, if_false, Memory.wfFrom, Bool.and_eq_true, decide_eq_true_eq]
        exact ⟨⟨⟨hlo, ha⟩, by simpa using hv⟩, ⟨⟨h1, w.1.1.2⟩, w.1.2⟩, w.2⟩
    · by_cases h2 : a = b
      · subst h2
        by_cases hv : v = 0#8
        · simpa [Memory.write, hv] using Memory.wfFrom_mono (by omega) m w.2
        · simp only [Memory.write, hv, Nat.lt_irrefl, if_true, if_false, Memory.wfFrom, Bool.and_eq_true,
            decide_eq_true_eq]
          exact ⟨⟨⟨hlo, ha⟩, by simpa using hv⟩, w.2⟩
      · simp only [Memory.write, h1, h2, if_false, Memory.wfFrom, Bool.and_eq_true, decide_eq_true_eq]
        exact ⟨⟨⟨w.1.1.1, w.1.1.2⟩, w.1.2⟩, ih w.2 (by omega)⟩

/-- A write inside the space keeps the canonical form. -/
theorem Memory.wf_write (m : Memory) (w : m.wf = true) {a : Nat} (v : Byte) (ha : a < memSize) :
    (m.write a v).wf = true := Memory.wfFrom_write m w v (Nat.zero_le a) ha

/-- Setting a byte of the state keeps the canonical form, at any address. -/
theorem State.setByte_wf (s : State) (w : s.mem.wf = true) (a : Nat) (v : Byte) : (s.setByte a v).mem.wf = true := by
  unfold State.setByte
  split
  · exact Memory.wf_write s.mem w v ‹_›
  · exact w

/-- A byte of the state after a byte is set. -/
theorem State.setByte_byteAt_same (s : State) (w : s.mem.wf = true) {a : Nat} (v : Byte) (ha : a < memSize) :
    (s.setByte a v).byteAt a = v := by
  simpa [State.setByte, ha, State.byteAt] using Memory.read_write_same s.mem w a v

theorem State.setByte_byteAt_other (s : State) {a b : Nat} (v : Byte) (h : b ≠ a) :
    (s.setByte a v).byteAt b = s.byteAt b := by
  unfold State.setByte
  split
  · exact Memory.read_write_other s.mem v h
  · rfl

/-- The memory of reset is in canonical form. -/
theorem reset_mem_wf : State.reset.mem.wf = true := rfl

/-- A host write keeps the canonical form (20_memory R65). -/
theorem hostWriteByte_wf {s t : State} {a v : Int} (w : s.mem.wf = true) (h : hostWriteByte s a v = .ok t) :
    t.mem.wf = true := by
  unfold hostWriteByte at h
  split at h
  · cases h; exact State.setByte_wf s w _ _
  · cases h

end Sys2Proof.Machine
end

