-- ==== Sys2Proof/Laws/Ops.lean ====
section
/-! SUPPORT. One lemma for each shared operation that says what it answers: accesses, operands, the stack, the commit
of a diff, and the outcome of a record. Later proofs cite these and never unfold the operation. -/

namespace Sys2Proof.Machine

/-! ### The commit of a diff -/

@[simp] theorem commit_nil (s : State) : commit [] s = s := rfl

@[simp] theorem commit_cons (e : Write) (ws : List Write) (s : State) :
    commit (e :: ws) s = commit ws (e.apply s) := rfl

@[simp] theorem commit_append (ws vs : List Write) (s : State) :
    commit (ws ++ vs) s = commit vs (commit ws s) := List.foldl_append

@[simp] theorem Write.apply_ip (s : State) (v : Word) : (Write.ip v).apply s = s.setIp v := rfl
@[simp] theorem Write.apply_reg (s : State) (r : Reg16) (v : Word) : (Write.reg r v).apply s = s.setReg r v := rfl
@[simp] theorem Write.apply_reg8 (s : State) (r : Reg8) (v : Byte) : (Write.reg8 r v).apply s = s.setReg8 r v := rfl
@[simp] theorem Write.apply_seg (s : State) (r : Sreg) (v : Word) : (Write.seg r v).apply s = s.setSeg r v := rfl
@[simp] theorem Write.apply_flag (s : State) (f : Flag) (b : Bool) : (Write.flag f b).apply s = s.setFlag f b := rfl
@[simp] theorem Write.apply_mem (s : State) (a : Nat) (v : Byte) : (Write.mem a v).apply s = s.setByte a v := rfl

/-- No write reaches the program store, the parameters or the condition. -/
@[simp] theorem Write.apply_program (e : Write) (s : State) : (e.apply s).program = s.program := by
  cases e <;> simp [Write.apply]
@[simp] theorem Write.apply_cfg (e : Write) (s : State) : (e.apply s).cfg = s.cfg := by
  cases e <;> simp [Write.apply]
@[simp] theorem Write.apply_condition (e : Write) (s : State) : (e.apply s).condition = s.condition := by
  cases e <;> simp [Write.apply]

@[simp] theorem commit_program (ws : List Write) (s : State) : (commit ws s).program = s.program := by
  induction ws generalizing s with
  | nil => rfl
  | cons e ws ih => simp [ih]
@[simp] theorem commit_cfg (ws : List Write) (s : State) : (commit ws s).cfg = s.cfg := by
  induction ws generalizing s with
  | nil => rfl
  | cons e ws ih => simp [ih]
@[simp] theorem commit_condition (ws : List Write) (s : State) : (commit ws s).condition = s.condition := by
  induction ws generalizing s with
  | nil => rfl
  | cons e ws ih => simp [ih]

/-- Every write keeps the canonical form of the memory. -/
theorem Write.apply_wf (e : Write) (s : State) (w : s.mem.wf = true) : (e.apply s).mem.wf = true := by
  cases e with
  | mem a v => exact State.setByte_wf s w a v
  | _ => exact w

/-- So does a whole diff. -/
theorem commit_wf (ws : List Write) (s : State) (w : s.mem.wf = true) : (commit ws s).mem.wf = true := by
  induction ws generalizing s with
  | nil => exact w
  | cons e ws ih => exact ih _ (e.apply_wf s w)

/-! ### The outcome of a record -/

/-- Where the kind is simulated, `complete` answers the diff applied, or the exception. -/
theorem complete_ok {k : Kind} {s : State} {e : Write} {ws : List Write} (h : k ∈ s.cfg.simulated) :
    complete k s (.ok (e :: ws)) = .next (commit (e :: ws) s) := by
  simp [complete, h]

theorem complete_error {k : Kind} {s : State} {f : Fault} (h : k ∈ s.cfg.simulated) :
    complete k s (.error f) = .fault f := by
  simp [complete, h, raise]

/-- Everything a record that gives a next state can have done. -/
theorem complete_next {k : Kind} {s t : State} {d : Except Fault (List Write)} (h : complete k s d = .next t) :
    t = stuck s ∨ (k ∈ s.cfg.simulated ∧ ∃ e ws, d = .ok (e :: ws) ∧ t = commit (e :: ws) s) := by
  unfold complete at h
  split at h
  · next hk =>
    match d with
    | .error f => simp [raise] at h
    | .ok [] => simp at h; exact .inl h.symm
    | .ok (e :: ws) => simp only [Host.Outcome.next.injEq] at h; exact .inr ⟨hk, e, ws, rfl, by rw [← h]⟩
  · simp at h; exact .inl h.symm

/-! ### Accesses -/

theorem memReadByte_ok {s : State} {a : Nat} (h : a < memSize) : memReadByte s a = .ok (s.byteAt a) := if_pos h

theorem memReadByte_error {s : State} {a : Nat} (h : memSize ≤ a) :
    memReadByte s a = .error (.addressRange a none) := if_neg (by omega)

/-- A read inside the space answers the value stored there. -/
theorem memRead_ok {s : State} {w : Width} {a : Nat} (h : accessOk w a = true) :
    memRead s w a = .ok (valueAt s w a) := by
  cases w with
  | byte =>
    simp only [accessOk, decide_eq_true_eq] at h
    simp [memRead, memReadByte_ok h, valueAt, bind, Except.bind, pure, Except.pure]
  | word =>
    simp only [accessOk, decide_eq_true_eq] at h
    simp [memRead, memReadByte_ok h, memReadByte_ok (show a < memSize by omega), valueAt, wordAt, bind, Except.bind,
      pure, Except.pure]

/-- The bytes of a value at a width, by address. -/
def storeBytes : Width → Nat → Nat → List Write
  | .byte, a, v => [.mem a (BitVec.ofNat 8 v)]
  | .word, a, v => [.mem a (BitVec.ofNat 8 v), .mem (a + 1) (BitVec.ofNat 8 (v / 256))]

/-- A write inside the space answers its bytes, low byte first. -/
theorem memWrite_ok {s : State} {w : Width} {a v : Nat} (h : accessOk w a = true) :
    memWrite s w a v = .ok (storeBytes w a v) := by
  cases w with
  | byte =>
    simp only [accessOk, decide_eq_true_eq] at h
    simp [memWrite, memReadByte_ok h, storeBytes, bind, Except.bind, pure, Except.pure]
  | word =>
    simp only [accessOk, decide_eq_true_eq] at h
    simp [memWrite, memReadByte_ok h, memReadByte_ok (show a < memSize by omega), storeBytes, bind, Except.bind, pure,
      Except.pure]

/-- A physical address is inside the space (20_memory R70). -/
theorem phys_lt (sg : Word) (off : Int) : phys sg off < memSize := by
  unfold phys
  have h : ((sg.toNat : Int) * 16 + off) % (memSize : Int) < (memSize : Int) := Int.emod_lt_of_pos _ (by decide)
  have h0 : 0 ≤ ((sg.toNat : Int) * 16 + off) % (memSize : Int) := Int.emod_nonneg _ (by decide)
  omega

/-- A byte access at a physical address raises nothing. -/
@[simp] theorem accessOk_byte_phys (sg : Word) (off : Int) : accessOk .byte (phys sg off) = true := by
  simp [accessOk, phys_lt]

/-! ### Operands -/

/-- Reading an operand whose access is inside the space answers the value it holds. -/
theorem readOp_ok {s : State} {w : Width} {op : Operand} (h : operandOk s w op = true) :
    readOp s w op = .ok (operandVal s w op) := by
  cases op with
  | reg8 r => rfl
  | reg16 r => rfl
  | mem ea => exact memRead_ok h

/-- The entries of an operand written. -/
def operandWrites (s : State) (w : Width) (op : Operand) (v : Nat) : List Write :=
  match op with
  | .reg8 r => [.reg8 r (BitVec.ofNat 8 v)]
  | .reg16 r => [.reg r (BitVec.ofNat 16 v)]
  | .mem ea => storeBytes w (eaPhys s ea) v

/-- Writing an operand whose access is inside the space answers its entries. -/
theorem writeOp_ok {s : State} {w : Width} {op : Operand} {v : Nat} (h : operandOk s w op = true) :
    writeOp s w op v = .ok (operandWrites s w op v) := by
  cases op with
  | reg8 r => rfl
  | reg16 r => rfl
  | mem ea => exact memWrite_ok h

/-! ### Frames -/

/-- A state is a frame of itself. -/
theorem Frame.refl (s : State) (x : Touched) : Frame s s x :=
  ⟨fun _ _ _ => rfl, fun _ _ _ => rfl, fun _ _ => rfl, fun _ _ => rfl, fun _ _ => rfl, rfl, rfl, rfl⟩

/-- The byte half of a register, at the side it stands on. -/
def Reg8.half (q : Reg8) (w : Word) : Byte := if q.isHigh then hiByte w else loByte w

/-- Two frames one after the other. -/
theorem Frame.trans {s t u : State} {x y : Touched} (h : Frame s t x) (g : Frame t u y) : Frame s u (x.add y) := by
  obtain ⟨h1, h2, h3, h4, h5, h6, h7, h8⟩ := h
  obtain ⟨g1, g2, g3, g4, g5, g6, g7, g8⟩ := g
  refine ⟨fun r a b => ?_, fun q a b => ?_, fun r a => ?_, fun f a => ?_, fun m a => ?_, g6.trans h6, g7.trans h7,
    g8.trans h8⟩
  · simp only [Touched.add, List.mem_append, not_or] at a b
    exact (g1 r a.2 fun k hk => b k (.inr hk)).trans (h1 r a.1 fun k hk => b k (.inl hk))
  · simp only [Touched.add, List.mem_append, not_or] at a b
    exact (g2 q a.2 b.2).trans (h2 q a.1 b.1)
  · simp only [Touched.add, List.mem_append, not_or] at a
    exact (g3 r a.2).trans (h3 r a.1)
  · simp only [Touched.add, List.mem_append, not_or] at a
    exact (g4 f a.2).trans (h4 f a.1)
  · simp only [Touched.add, List.mem_append, not_or] at a
    exact (g5 m a.2).trans (h5 m a.1)

/-- A write of `ip` changes nothing a frame speaks of. -/
theorem frame_setIp (s : State) (v : Word) : Frame s (s.setIp v) touchNothing := by
  refine ⟨fun _ _ _ => rfl, fun _ _ _ => rfl, fun _ _ => rfl, fun _ _ => rfl, fun _ _ => rfl, rfl, rfl, rfl⟩

/-- A write of a 16-bit register changes that register, and its halves. -/
theorem frame_setReg (s : State) (r : Reg16) (v : Word) : Frame s (s.setReg r v) (touchRegs [r]) := by
  refine ⟨fun q a _ => ?_, fun q _ b => ?_, fun _ _ => rfl, fun _ _ => rfl, fun _ _ => rfl, rfl, rfl, rfl⟩
  · simp only [touchRegs, List.mem_singleton] at a; simp [a]
  · simp only [touchRegs, List.mem_singleton] at b; simp [State.reg8, b]

/-- A write of a byte half changes that half, and the register it is in. -/
theorem frame_setReg8 (s : State) (r : Reg8) (v : Byte) : Frame s (s.setReg8 r v) (touchHalves [r]) := by
  refine ⟨fun q _ b => ?_, fun q a _ => ?_, fun _ _ => rfl, fun _ _ => rfl, fun _ _ => rfl, rfl, rfl, rfl⟩
  · exact State.setReg8_reg_other s r v fun h => b r (by simp [touchHalves]) h.symm
  · simp only [touchHalves, List.mem_singleton] at a; rw [State.setReg8_reg8, if_neg a]

/-- A write of a segment register changes that register. -/
theorem frame_setSeg (s : State) (r : Sreg) (v : Word) : Frame s (s.setSeg r v) (touchSegs [r]) := by
  refine ⟨fun _ _ _ => rfl, fun _ _ _ => rfl, fun q a => ?_, fun _ _ => rfl, fun _ _ => rfl, rfl, rfl, rfl⟩
  simp only [touchSegs, List.mem_singleton] at a; simp [a]

/-- A write of a flag changes that flag. -/
theorem frame_setFlag (s : State) (f : Flag) (b : Bool) : Frame s (s.setFlag f b) (touchFlags [f]) := by
  refine ⟨fun _ _ _ => rfl, fun _ _ _ => rfl, fun _ _ => rfl, fun g a => ?_, fun _ _ => rfl, rfl, rfl, rfl⟩
  simp only [touchFlags, List.mem_singleton] at a; simp [a]

/-- A write of a byte of memory changes that byte. -/
theorem frame_setByte (s : State) (a : Nat) (v : Byte) : Frame s (s.setByte a v) (touchBytes [a]) := by
  refine ⟨fun _ _ _ => by simp, fun _ _ _ => by simp, fun _ _ => by simp, fun _ _ => by simp, fun b h => ?_,
    by simp, by simp, by simp⟩
  simp only [touchBytes, List.mem_singleton] at h
  exact State.setByte_byteAt_other s v h

/-- The writes of an operand change what `touchOperand` says. -/
theorem frame_operandWrites (s t : State) (w : Width) (op : Operand) (v : Nat) :
    Frame t (commit (operandWrites s w op v) t) (touchOperand s w op) := by
  cases op with
  | reg8 r => exact frame_setReg8 t r _
  | reg16 r => exact frame_setReg t r _
  | mem ea =>
    cases w with
    | byte => exact frame_setByte t _ _
    | word => exact (frame_setByte t _ _).trans (frame_setByte _ _ _)

/-- After the writes of an operand it holds the value. -/
theorem operandWrites_hold (s t : State) (w : Width) (op : Operand) (v : Nat) (m : t.mem.wf = true)
    (h : operandOk s w op = true) : OperandHolds s (commit (operandWrites s w op v) t) w op v := by
  cases op with
  | reg8 r => simp [OperandHolds, operandWrites, State.setReg8_reg8]
  | reg16 r => simp [OperandHolds, operandWrites]
  | mem ea =>
    cases w with
    | byte =>
      simp only [operandOk, accessOk, decide_eq_true_eq] at h
      simpa [OperandHolds, operandWrites, BytesHold, storeBytes] using State.setByte_byteAt_same t m _ h
    | word =>
      simp only [operandOk, accessOk, decide_eq_true_eq] at h
      refine ⟨?_, ?_⟩
      · simp only [operandWrites, storeBytes, commit_cons, commit_nil, Write.apply_mem]
        rw [State.setByte_byteAt_other _ _ (by omega)]
        exact State.setByte_byteAt_same t m _ (by omega)
      · simp only [operandWrites, storeBytes, commit_cons, commit_nil, Write.apply_mem]
        exact State.setByte_byteAt_same _ (State.setByte_wf t m _ _) _ h

/-! ### The stack -/

/-- A push inside the space answers the word's bytes. -/
theorem push16_ok {s : State} {v : Word} {k : Nat} (h : accessOk .word (pushAddr s k) = true) :
    push16 s v k = .ok (storeBytes .word (pushAddr s k) v.toNat) := memWrite_ok h

/-- A pop inside the space answers the word there. -/
theorem pop16_ok {s : State} {k : Nat} (h : accessOk .word (popAddr s k) = true) :
    pop16 s k = .ok (BitVec.ofNat 16 (wordAt s (popAddr s k))) := by
  simp [pop16, memRead_ok h, valueAt, bind, Except.bind, pure, Except.pure]

/-- The bytes of a word as they are stored. -/
theorem ofNat_toNat_loByte (v : Word) : BitVec.ofNat 8 v.toNat = loByte v := by
  apply BitVec.eq_of_toNat_eq
  simp [loByte, BitVec.extractLsb'_toNat]

theorem ofNat_toNat_hiByte (v : Word) : BitVec.ofNat 8 (v.toNat / 256) = hiByte v := by
  apply BitVec.eq_of_toNat_eq
  simp [hiByte, BitVec.extractLsb'_toNat, Nat.shiftRight_eq_div_pow]

end Sys2Proof.Machine
end

