-- ==== Sys2Proof/Laws/Flags.lean ====
section
/-! SUPPORT. The ALU in words of arithmetic: parity, sign, signed overflow, the flags of a result, and what a list of
flag entries writes. -/

namespace Sys2Proof.Machine

set_option maxRecDepth 8000 in
/-- The parity of a byte, over all 256 of them. -/
theorem parity_byte : ∀ n : Fin 256,
    parity n.val = decide (((List.range 8).filter fun k => n.val.testBit k).length % 2 = 0) := by decide

/-- `Parity(r)` is "the number of 1 bits of the low byte is even" (42_alu_flags R200). -/
theorem parity_iff (r : Nat) : parity r = true ↔ evenOnes r := by
  have h := parity_byte ⟨r % 256, Nat.mod_lt _ (by decide)⟩
  have e : (List.range 8).filter (fun k => (r % 256).testBit k) = (List.range 8).filter fun k => r.testBit k := by
    refine List.filter_congr fun k hk => ?_
    have hk8 : k < 8 := List.mem_range.1 hk
    rw [show (256 : Nat) = 2 ^ 8 from rfl, Nat.testBit_mod_two_pow]
    simp [hk8]
  have hp : parity r = parity (r % 256) := by simp [parity]
  simp only [e] at h
  rw [hp, h, evenOnes, decide_eq_true_eq]

/-- The sign bit of a value below the modulus (00_scope R11). -/
theorem signBit_iff {w : Width} {r : Nat} (h : r < modulus w) : signBit w r = true ↔ modulus w / 2 ≤ r := by
  cases w with
  | byte =>
    simp only [modulus] at h ⊢
    rw [signBit, msb, Nat.testBit_eq_decide_div_mod_eq, decide_eq_true_eq]
    omega
  | word =>
    simp only [modulus] at h ⊢
    rw [signBit, msb, Nat.testBit_eq_decide_div_mod_eq, decide_eq_true_eq]
    omega

/-- The same, negated. -/
theorem signBit_false_iff {w : Width} {r : Nat} (h : r < modulus w) : signBit w r = false ↔ r < modulus w / 2 := by
  rw [← Bool.not_eq_true, signBit_iff h, Nat.not_le]

theorem modulus_pos (w : Width) : 0 < modulus w := by cases w <;> decide

/-- `reduce` is below the modulus, and congruent to its argument. -/
theorem reduce_lt (w : Width) (n : Int) : reduce w n < modulus w := by
  have hp : (0 : Int) < (modulus w : Int) := by exact_mod_cast modulus_pos w
  have h := Int.emod_lt_of_pos n hp
  have h0 := Int.emod_nonneg n (Int.ne_of_gt hp)
  unfold reduce
  omega

theorem reduce_eq_emod (w : Width) (n : Int) : (reduce w n : Int) = n % (modulus w : Int) := by
  have hp : (0 : Int) < (modulus w : Int) := by exact_mod_cast modulus_pos w
  have h0 := Int.emod_nonneg n (Int.ne_of_gt hp)
  unfold reduce
  omega

/-- The signed value of an unsigned one, by its sign bit (00_scope R11). -/
theorem conv_eq {w : Width} {a : Nat} (h : a < modulus w) :
    conv w a = if signBit w a then (a : Int) - modulus w else a := by
  unfold conv
  by_cases hs : signBit w a = true
  · rw [if_pos hs, if_neg (Nat.not_lt.2 ((signBit_iff h).1 hs))]
  · rw [if_neg hs, if_pos (Nat.not_le.1 fun g => hs ((signBit_iff h).2 g))]

/-- The sign rule of an addition is "the signed sum does not fit" (42_alu_flags R202). -/
theorem aluAdd_OF (w : Width) {a b : Nat} (c : Bool) (ha : a < modulus w) (hb : b < modulus w) :
    (aluAdd w a b c).OF = true ↔ ¬ FitsSigned w (conv w a + conv w b + c.toNat) := by
  have hc : c.toNat ≤ 1 := Bool.toNat_le c
  have e1 := signBit_iff ha
  have e2 := signBit_iff hb
  have e3 := signBit_iff (Nat.mod_lt (a + b + c.toNat) (modulus_pos w))
  rw [conv_eq ha, conv_eq hb, FitsSigned]
  simp only [aluAdd, AluResult.of, Bool.and_eq_true, beq_iff_eq, bne_iff_ne]
  generalize c.toNat = n at *
  generalize signBit w ((a + b + n) % modulus w) = z at *
  generalize signBit w a = x at *
  generalize signBit w b = y at *
  cases w <;> cases x <;> cases y <;> cases z <;> simp [modulus] at * <;> omega

/-- The sign rule of a subtraction is "the signed difference does not fit" (42_alu_flags R203). -/
theorem aluSub_OF (w : Width) {a b : Nat} (c : Bool) (ha : a < modulus w) (hb : b < modulus w) :
    (aluSub w a b c).OF = true ↔ ¬ FitsSigned w (conv w a - conv w b - c.toNat) := by
  have hc : c.toNat ≤ 1 := Bool.toNat_le c
  have e1 := signBit_iff ha
  have e2 := signBit_iff hb
  have e3 := signBit_iff (reduce_lt w ((a : Int) - b - c.toNat))
  have e4 := reduce_eq_emod w ((a : Int) - b - c.toNat)
  rw [conv_eq ha, conv_eq hb, FitsSigned]
  simp only [aluSub, AluResult.of, Bool.and_eq_true, bne_iff_ne]
  generalize c.toNat = n at *
  generalize reduce w ((a : Int) - b - n) = r at *
  generalize signBit w r = z at *
  generalize signBit w a = x at *
  generalize signBit w b = y at *
  cases w <;> cases x <;> cases y <;> cases z <;> simp [modulus] at * <;> omega

/-- The flags of an `AluResult` are those of its result, in a state that holds them. -/
theorem resultFlags_of {w : Width} {r : Nat} {t : State} (h : r < modulus w) (hs : t.flag .SF = signBit w r)
    (hz : t.flag .ZF = (r == 0)) (hp : t.flag .PF = parity r) : ResultFlags t w r := by
  refine ⟨?_, ?_, ?_⟩
  · rw [hs]; exact signBit_iff h
  · rw [hz]; exact beq_iff_eq
  · rw [hp]; exact parity_iff r

/-! ### Flag entries -/

/-- A list of flag entries changes only flags, and those in the list. -/
theorem frame_flagEntries (fs : List (Flag × Bool)) (t : State) :
    Frame t (commit (fs.map fun e => .flag e.1 e.2) t) (touchFlags (fs.map Prod.fst)) := by
  induction fs generalizing t with
  | nil => exact Frame.refl t _
  | cons e fs ih =>
    have h := (frame_setFlag t e.1 e.2).trans (ih (t.setFlag e.1 e.2))
    simpa [touchFlags, Touched.add, touchNothing] using h

/-- After all nine flags are written from an image each holds its bit of it (10_state R26). -/
theorem flagsFrom_all (v : Word) (t : State) (f : Flag) :
    (commit (flagsFrom Flag.all v) t).flag f = v.getLsbD f.bit := by
  cases f <;> simp [flagsFrom, Flag.all, Flag.bit]

/-- With undefined flags kept, the flag entries are the defined ones (42_alu_flags R208). -/
theorem flagWrites_unchanged {s : State} (h : s.cfg.undefFlags = .unchanged) (ds : List (Flag × Bool)) (us : List Flag) :
    flagWrites s ds us = ds.map fun e => .flag e.1 e.2 := by
  simp [flagWrites, h]

/-! ### Shifts -/

@[simp] theorem shiftRot_zero (op : ShiftOp) (w : Width) (x : Nat × Bool) : shiftRot op w 0 x = x := rfl

@[simp] theorem shiftRot_one (op : ShiftOp) (w : Width) (x : Nat × Bool) : shiftRot op w 1 x = shiftStep op w x := rfl

/-- A count in two parts is one after the other. -/
theorem shiftRot_add (op : ShiftOp) (w : Width) (c d : Nat) (x : Nat × Bool) :
    shiftRot op w (c + d) x = shiftRot op w d (shiftRot op w c x) := by
  induction c generalizing x with
  | zero => simp
  | succ c ih => rw [Nat.succ_add]; exact ih (shiftStep op w x)

end Sys2Proof.Machine
end

