-- ==== Sys2Proof/Laws/PerInstr.lean ====
section
/-! SUPPORT. Statements made for every constructor of `Instr`, one lemma each. Family `ByteLength` (spec 00_scope R7,
30_encoding R94): the length of a record is between one and eight bytes. -/

namespace Sys2Proof.Laws.ByteLength

/-- A well-formed instruction is at least one byte long, and at most eight, whatever `LOCKABLE` is. -/
def Statement (i : Instr) : Prop := ∀ lk, WellFormed lk i = true → 1 ≤ i.byteLength ∧ i.byteLength ≤ 8

/-- A record with no repeat has at most two prefix bytes, so a body of one to six bytes is enough. -/
theorem of_body {i : Instr} (n : Nat) (h : i.repField = .none) (e : i.bodyLength = n) (b : 1 ≤ n ∧ n ≤ 6) :
    Statement i := fun _ _ => by
  have := Instr.prefixLength_le h
  unfold Instr.byteLength
  omega

/-- A string record has no lock and no override: one byte, and one more with a repeat. -/
theorem of_string {i : Instr} (hl : i.isLocked = false) (hs : i.segOverride = none) (hb : i.bodyLength = 1) :
    Statement i := fun _ _ => by
  simp only [Instr.byteLength, Instr.prefixLength, hl, hs, hb]
  by_cases h : i.repField = .none <;> simp [h]

/-- A row that is no record of the decoder is not well-formed. -/
theorem of_illFormed {i : Instr} (h : ∀ lk, WellFormed lk i = false) : Statement i := fun lk g => by
  simp [h lk] at g

theorem movRmReg (dst src : Operand) : Statement (.movRmReg dst src) := by
  have h0 := pairLength_le dst src
  exact of_body (1 + pairLength dst src) rfl rfl (by omega)
theorem movRmImm (dst : Operand) (imm : Imm) : Statement (.movRmImm dst imm) := by
  have h0 := dst.rmLength_le
  have h1 := imm.size_le
  exact of_body (1 + dst.rmLength + imm.size) rfl rfl (by omega)
theorem movRegImm (dst : Operand) (imm : Imm) : Statement (.movRegImm dst imm) := by
  have h0 := imm.size_le
  exact of_body (1 + imm.size) rfl rfl (by omega)
theorem movAccMem (w : Width) (ea : Ea) : Statement (.movAccMem w ea) := of_body 3 rfl rfl (by decide)
theorem movMemAcc (w : Width) (ea : Ea) : Statement (.movMemAcc w ea) := of_body 3 rfl rfl (by decide)
theorem movSregRm (dst : Sreg) (src : Operand) : Statement (.movSregRm dst src) := by
  have h0 := src.rmLength_le
  exact of_body (1 + src.rmLength) rfl rfl (by omega)
theorem movRmSreg (dst : Operand) (src : Sreg) : Statement (.movRmSreg dst src) := by
  have h0 := dst.rmLength_le
  exact of_body (1 + dst.rmLength) rfl rfl (by omega)
theorem pushRm (op : Operand) : Statement (.pushRm op) := by
  have h0 := op.rmLength_le
  exact of_body (1 + op.rmLength) rfl rfl (by omega)
theorem pushReg (r : Reg16) : Statement (.pushReg r) := of_body 1 rfl rfl (by decide)
theorem pushSreg (s : Sreg) : Statement (.pushSreg s) := of_body 1 rfl rfl (by decide)
theorem popRm (op : Operand) : Statement (.popRm op) := by
  have h0 := op.rmLength_le
  exact of_body (1 + op.rmLength) rfl rfl (by omega)
theorem popReg (r : Reg16) : Statement (.popReg r) := of_body 1 rfl rfl (by decide)
theorem popSreg (s : Sreg) : Statement (.popSreg s) := of_body 1 rfl rfl (by decide)
theorem xchgRmReg (lock : Bool) (op1 op2 : Operand) : Statement (.xchgRmReg lock op1 op2) := by
  have h0 := pairLength_le op1 op2
  exact of_body (1 + pairLength op1 op2) rfl rfl (by omega)
theorem xchgAccReg (r : Reg16) : Statement (.xchgAccReg r) := of_body 1 rfl rfl (by decide)
theorem inFixed (w : Width) (port : Byte) : Statement (.inFixed w port) := of_body 2 rfl rfl (by decide)
theorem inVar (w : Width) : Statement (.inVar w) := of_body 1 rfl rfl (by decide)
theorem outFixed (w : Width) (port : Byte) : Statement (.outFixed w port) := of_body 2 rfl rfl (by decide)
theorem outVar (w : Width) : Statement (.outVar w) := of_body 1 rfl rfl (by decide)
theorem xlat : Statement (.xlat) := of_body 1 rfl rfl (by decide)
theorem lea (r : Reg16) (ea : Ea) : Statement (.lea r ea) := by
  have h0 := ea.length_le
  exact of_body (1 + ea.length) rfl rfl (by omega)
theorem lds (r : Reg16) (ea : Ea) : Statement (.lds r ea) := by
  have h0 := ea.length_le
  exact of_body (1 + ea.length) rfl rfl (by omega)
theorem les (r : Reg16) (ea : Ea) : Statement (.les r ea) := by
  have h0 := ea.length_le
  exact of_body (1 + ea.length) rfl rfl (by omega)
theorem lahf : Statement (.lahf) := of_body 1 rfl rfl (by decide)
theorem sahf : Statement (.sahf) := of_body 1 rfl rfl (by decide)
theorem pushf : Statement (.pushf) := of_body 1 rfl rfl (by decide)
theorem popf : Statement (.popf) := of_body 1 rfl rfl (by decide)
theorem addRmReg (lock : Bool) (op1 op2 : Operand) : Statement (.addRmReg lock op1 op2) := by
  have h0 := pairLength_le op1 op2
  exact of_body (1 + pairLength op1 op2) rfl rfl (by omega)
theorem addRmImm (lock : Bool) (op1 : Operand) (imm : Imm) : Statement (.addRmImm lock op1 imm) := by
  have h0 := op1.rmLength_le
  have h1 := imm.size_le
  exact of_body (1 + op1.rmLength + imm.size) rfl rfl (by omega)
theorem addAccImm (imm : Imm) : Statement (.addAccImm imm) := by
  have h0 := imm.size_le
  exact of_body (1 + imm.size) rfl rfl (by omega)
theorem adcRmReg (lock : Bool) (op1 op2 : Operand) : Statement (.adcRmReg lock op1 op2) := by
  have h0 := pairLength_le op1 op2
  exact of_body (1 + pairLength op1 op2) rfl rfl (by omega)
theorem adcRmImm (lock : Bool) (op1 : Operand) (imm : Imm) : Statement (.adcRmImm lock op1 imm) := by
  have h0 := op1.rmLength_le
  have h1 := imm.size_le
  exact of_body (1 + op1.rmLength + imm.size) rfl rfl (by omega)
theorem adcAccImm (imm : Imm) : Statement (.adcAccImm imm) := by
  have h0 := imm.size_le
  exact of_body (1 + imm.size) rfl rfl (by omega)
theorem incRm (lock : Bool) (op : Operand) : Statement (.incRm lock op) := by
  have h0 := op.rmLength_le
  exact of_body (1 + op.rmLength) rfl rfl (by omega)
theorem incReg (r : Reg16) : Statement (.incReg r) := of_body 1 rfl rfl (by decide)
theorem aaa : Statement (.aaa) := of_body 1 rfl rfl (by decide)
theorem daa : Statement (.daa) := of_body 1 rfl rfl (by decide)
theorem subRmReg (lock : Bool) (op1 op2 : Operand) : Statement (.subRmReg lock op1 op2) := by
  have h0 := pairLength_le op1 op2
  exact of_body (1 + pairLength op1 op2) rfl rfl (by omega)
theorem subRmImm (lock : Bool) (op1 : Operand) (imm : Imm) : Statement (.subRmImm lock op1 imm) := by
  have h0 := op1.rmLength_le
  have h1 := imm.size_le
  exact of_body (1 + op1.rmLength + imm.size) rfl rfl (by omega)
theorem subAccImm (imm : Imm) : Statement (.subAccImm imm) := by
  have h0 := imm.size_le
  exact of_body (1 + imm.size) rfl rfl (by omega)
theorem sbbRmReg (lock : Bool) (op1 op2 : Operand) : Statement (.sbbRmReg lock op1 op2) := by
  have h0 := pairLength_le op1 op2
  exact of_body (1 + pairLength op1 op2) rfl rfl (by omega)
theorem sbbRmImm (lock : Bool) (op1 : Operand) (imm : Imm) : Statement (.sbbRmImm lock op1 imm) := by
  have h0 := op1.rmLength_le
  have h1 := imm.size_le
  exact of_body (1 + op1.rmLength + imm.size) rfl rfl (by omega)
theorem sbbAccImm (imm : Imm) : Statement (.sbbAccImm imm) := by
  have h0 := imm.size_le
  exact of_body (1 + imm.size) rfl rfl (by omega)
theorem decRm (lock : Bool) (op : Operand) : Statement (.decRm lock op) := by
  have h0 := op.rmLength_le
  exact of_body (1 + op.rmLength) rfl rfl (by omega)
theorem decReg (r : Reg16) : Statement (.decReg r) := of_body 1 rfl rfl (by decide)
theorem neg (lock : Bool) (op : Operand) : Statement (.neg lock op) := by
  have h0 := op.rmLength_le
  exact of_body (1 + op.rmLength) rfl rfl (by omega)
theorem cmpRmReg (op1 op2 : Operand) : Statement (.cmpRmReg op1 op2) := by
  have h0 := pairLength_le op1 op2
  exact of_body (1 + pairLength op1 op2) rfl rfl (by omega)
theorem cmpRmImm (op1 : Operand) (imm : Imm) : Statement (.cmpRmImm op1 imm) := by
  have h0 := op1.rmLength_le
  have h1 := imm.size_le
  exact of_body (1 + op1.rmLength + imm.size) rfl rfl (by omega)
theorem cmpAccImm (imm : Imm) : Statement (.cmpAccImm imm) := by
  have h0 := imm.size_le
  exact of_body (1 + imm.size) rfl rfl (by omega)
theorem aas : Statement (.aas) := of_body 1 rfl rfl (by decide)
theorem das : Statement (.das) := of_body 1 rfl rfl (by decide)
theorem mul (op : Operand) : Statement (.mul op) := by
  have h0 := op.rmLength_le
  exact of_body (1 + op.rmLength) rfl rfl (by omega)
theorem imul (op : Operand) : Statement (.imul op) := by
  have h0 := op.rmLength_le
  exact of_body (1 + op.rmLength) rfl rfl (by omega)
theorem aam : Statement (.aam) := of_body 2 rfl rfl (by decide)
theorem div (op : Operand) : Statement (.div op) := by
  have h0 := op.rmLength_le
  exact of_body (1 + op.rmLength) rfl rfl (by omega)
theorem idiv (op : Operand) : Statement (.idiv op) := by
  have h0 := op.rmLength_le
  exact of_body (1 + op.rmLength) rfl rfl (by omega)
theorem aad : Statement (.aad) := of_body 2 rfl rfl (by decide)
theorem cbw : Statement (.cbw) := of_body 1 rfl rfl (by decide)
theorem cwd : Statement (.cwd) := of_body 1 rfl rfl (by decide)
theorem not (lock : Bool) (op : Operand) : Statement (.not lock op) := by
  have h0 := op.rmLength_le
  exact of_body (1 + op.rmLength) rfl rfl (by omega)
theorem shl (op : Operand) (count : ShiftCount) : Statement (.shl op count) := by
  have h0 := op.rmLength_le
  exact of_body (1 + op.rmLength) rfl rfl (by omega)
theorem shr (op : Operand) (count : ShiftCount) : Statement (.shr op count) := by
  have h0 := op.rmLength_le
  exact of_body (1 + op.rmLength) rfl rfl (by omega)
theorem sar (op : Operand) (count : ShiftCount) : Statement (.sar op count) := by
  have h0 := op.rmLength_le
  exact of_body (1 + op.rmLength) rfl rfl (by omega)
theorem rol (op : Operand) (count : ShiftCount) : Statement (.rol op count) := by
  have h0 := op.rmLength_le
  exact of_body (1 + op.rmLength) rfl rfl (by omega)
theorem ror (op : Operand) (count : ShiftCount) : Statement (.ror op count) := by
  have h0 := op.rmLength_le
  exact of_body (1 + op.rmLength) rfl rfl (by omega)
theorem rcl (op : Operand) (count : ShiftCount) : Statement (.rcl op count) := by
  have h0 := op.rmLength_le
  exact of_body (1 + op.rmLength) rfl rfl (by omega)
theorem rcr (op : Operand) (count : ShiftCount) : Statement (.rcr op count) := by
  have h0 := op.rmLength_le
  exact of_body (1 + op.rmLength) rfl rfl (by omega)
theorem andRmReg (lock : Bool) (op1 op2 : Operand) : Statement (.andRmReg lock op1 op2) := by
  have h0 := pairLength_le op1 op2
  exact of_body (1 + pairLength op1 op2) rfl rfl (by omega)
theorem andRmImm (lock : Bool) (op1 : Operand) (imm : Imm) : Statement (.andRmImm lock op1 imm) := by
  have h0 := op1.rmLength_le
  have h1 := imm.size_le
  exact of_body (1 + op1.rmLength + imm.size) rfl rfl (by omega)
theorem andAccImm (imm : Imm) : Statement (.andAccImm imm) := by
  have h0 := imm.size_le
  exact of_body (1 + imm.size) rfl rfl (by omega)
theorem testRmReg (op1 op2 : Operand) : Statement (.testRmReg op1 op2) := by
  have h0 := pairLength_le op1 op2
  exact of_body (1 + pairLength op1 op2) rfl rfl (by omega)
theorem testRmImm (op1 : Operand) (imm : Imm) : Statement (.testRmImm op1 imm) := by
  have h0 := op1.rmLength_le
  have h1 := imm.size_le
  exact of_body (1 + op1.rmLength + imm.size) rfl rfl (by omega)
theorem testAccImm (imm : Imm) : Statement (.testAccImm imm) := by
  have h0 := imm.size_le
  exact of_body (1 + imm.size) rfl rfl (by omega)
theorem orRmReg (lock : Bool) (op1 op2 : Operand) : Statement (.orRmReg lock op1 op2) := by
  have h0 := pairLength_le op1 op2
  exact of_body (1 + pairLength op1 op2) rfl rfl (by omega)
theorem orRmImm (lock : Bool) (op1 : Operand) (imm : Imm) : Statement (.orRmImm lock op1 imm) := by
  have h0 := op1.rmLength_le
  have h1 := imm.size_le
  exact of_body (1 + op1.rmLength + imm.size) rfl rfl (by omega)
theorem orAccImm (imm : Imm) : Statement (.orAccImm imm) := by
  have h0 := imm.size_le
  exact of_body (1 + imm.size) rfl rfl (by omega)
theorem xorRmReg (lock : Bool) (op1 op2 : Operand) : Statement (.xorRmReg lock op1 op2) := by
  have h0 := pairLength_le op1 op2
  exact of_body (1 + pairLength op1 op2) rfl rfl (by omega)
theorem xorRmImm (lock : Bool) (op1 : Operand) (imm : Imm) : Statement (.xorRmImm lock op1 imm) := by
  have h0 := op1.rmLength_le
  have h1 := imm.size_le
  exact of_body (1 + op1.rmLength + imm.size) rfl rfl (by omega)
theorem xorAccImm (imm : Imm) : Statement (.xorAccImm imm) := by
  have h0 := imm.size_le
  exact of_body (1 + imm.size) rfl rfl (by omega)
theorem movs (w : Width) (r : Rep) : Statement (.movs w r) := of_string rfl rfl rfl
theorem cmps (w : Width) (r : Rep) : Statement (.cmps w r) := of_string rfl rfl rfl
theorem scas (w : Width) (r : Rep) : Statement (.scas w r) := of_string rfl rfl rfl
theorem lods (w : Width) (r : Rep) : Statement (.lods w r) := of_string rfl rfl rfl
theorem stos (w : Width) (r : Rep) : Statement (.stos w r) := of_string rfl rfl rfl
theorem callNear (disp : Word) : Statement (.callNear disp) := of_body 3 rfl rfl (by decide)
theorem callNearInd (op : Operand) : Statement (.callNearInd op) := by
  have h0 := op.rmLength_le
  exact of_body (1 + op.rmLength) rfl rfl (by omega)
theorem callFar (seg off : Word) : Statement (.callFar seg off) := of_body 5 rfl rfl (by decide)
theorem callFarInd (ea : Ea) : Statement (.callFarInd ea) := by
  have h0 := ea.length_le
  exact of_body (1 + ea.length) rfl rfl (by omega)
theorem jmpNear (disp : Word) : Statement (.jmpNear disp) := of_body 3 rfl rfl (by decide)
theorem jmpShort (disp : Byte) : Statement (.jmpShort disp) := of_body 2 rfl rfl (by decide)
theorem jmpNearInd (op : Operand) : Statement (.jmpNearInd op) := by
  have h0 := op.rmLength_le
  exact of_body (1 + op.rmLength) rfl rfl (by omega)
theorem jmpFar (seg off : Word) : Statement (.jmpFar seg off) := of_body 5 rfl rfl (by decide)
theorem jmpFarInd (ea : Ea) : Statement (.jmpFarInd ea) := by
  have h0 := ea.length_le
  exact of_body (1 + ea.length) rfl rfl (by omega)
theorem retNear : Statement (.retNear) := of_body 1 rfl rfl (by decide)
theorem retNearImm (n : Word) : Statement (.retNearImm n) := of_body 3 rfl rfl (by decide)
theorem retFar : Statement (.retFar) := of_body 1 rfl rfl (by decide)
theorem retFarImm (n : Word) : Statement (.retFarImm n) := of_body 3 rfl rfl (by decide)
theorem je (disp : Byte) : Statement (.je disp) := of_body 2 rfl rfl (by decide)
theorem jl (disp : Byte) : Statement (.jl disp) := of_body 2 rfl rfl (by decide)
theorem jle (disp : Byte) : Statement (.jle disp) := of_body 2 rfl rfl (by decide)
theorem jb (disp : Byte) : Statement (.jb disp) := of_body 2 rfl rfl (by decide)
theorem jbe (disp : Byte) : Statement (.jbe disp) := of_body 2 rfl rfl (by decide)
theorem jp (disp : Byte) : Statement (.jp disp) := of_body 2 rfl rfl (by decide)
theorem jo (disp : Byte) : Statement (.jo disp) := of_body 2 rfl rfl (by decide)
theorem js (disp : Byte) : Statement (.js disp) := of_body 2 rfl rfl (by decide)
theorem jne (disp : Byte) : Statement (.jne disp) := of_body 2 rfl rfl (by decide)
theorem jnl (disp : Byte) : Statement (.jnl disp) := of_body 2 rfl rfl (by decide)
theorem jnle (disp : Byte) : Statement (.jnle disp) := of_body 2 rfl rfl (by decide)
theorem jnb (disp : Byte) : Statement (.jnb disp) := of_body 2 rfl rfl (by decide)
theorem jnbe (disp : Byte) : Statement (.jnbe disp) := of_body 2 rfl rfl (by decide)
theorem jnp (disp : Byte) : Statement (.jnp disp) := of_body 2 rfl rfl (by decide)
theorem jno (disp : Byte) : Statement (.jno disp) := of_body 2 rfl rfl (by decide)
theorem jns (disp : Byte) : Statement (.jns disp) := of_body 2 rfl rfl (by decide)
theorem loop (disp : Byte) : Statement (.loop disp) := of_body 2 rfl rfl (by decide)
theorem loopz (disp : Byte) : Statement (.loopz disp) := of_body 2 rfl rfl (by decide)
theorem loopnz (disp : Byte) : Statement (.loopnz disp) := of_body 2 rfl rfl (by decide)
theorem jcxz (disp : Byte) : Statement (.jcxz disp) := of_body 2 rfl rfl (by decide)
theorem int (type : Byte) : Statement (.int type) := of_body 2 rfl rfl (by decide)
theorem int3 : Statement (.int3) := of_body 1 rfl rfl (by decide)
theorem into : Statement (.into) := of_body 1 rfl rfl (by decide)
theorem iret : Statement (.iret) := of_body 1 rfl rfl (by decide)
theorem clc : Statement (.clc) := of_body 1 rfl rfl (by decide)
theorem cmc : Statement (.cmc) := of_body 1 rfl rfl (by decide)
theorem stc : Statement (.stc) := of_body 1 rfl rfl (by decide)
theorem cld : Statement (.cld) := of_body 1 rfl rfl (by decide)
theorem std : Statement (.std) := of_body 1 rfl rfl (by decide)
theorem cli : Statement (.cli) := of_body 1 rfl rfl (by decide)
theorem sti : Statement (.sti) := of_body 1 rfl rfl (by decide)
theorem hlt : Statement (.hlt) := of_body 1 rfl rfl (by decide)
theorem wait : Statement (.wait) := of_body 1 rfl rfl (by decide)
theorem esc (opcode : BitVec 6) (op : Operand) : Statement (.esc opcode op) := by
  have h0 := op.rmLength_le
  exact of_body (1 + op.rmLength) rfl rfl (by omega)
theorem unknown (b : Byte) : Statement (.unknown b) := of_body 1 rfl rfl (by decide)
theorem reserved (b0 b1 : Byte) : Statement (.reserved b0 b1) := of_illFormed fun _ => rfl
theorem seg (s : Sreg) (i : Instr) : Statement (.seg s i) := of_illFormed fun _ => rfl
theorem lock (i : Instr) : Statement (.lock i) := of_illFormed fun _ => rfl
theorem repne (i : Instr) : Statement (.repne i) := of_illFormed fun _ => rfl
theorem rep (i : Instr) : Statement (.rep i) := of_illFormed fun _ => rfl

end Sys2Proof.Laws.ByteLength
end

