-- ==== Sys2Proof/Tests/Slice0.lean ====
section
/-! SUPPORT. The model's own tests. The expected results are the spec's: its decoder vectors (96_test_vectors_decoder),
its one-step vectors (95 and 97, named by their id), and hand calculation from the rule a docstring cites. At the end,
a witness that meets all the hypotheses of each statement in Obligations.lean. -/

namespace Sys2Proof.Tests

set_option maxRecDepth 20000

open Sys2Proof.Machine

/-! ### Well-formedness: an ill-formed term for each check -/

/-- A memory operand `[bx]` of a size. -/
def bxMem (size : Option Width) : Operand := .mem (.mk .bx .none .none size)

/-- 30_encoding R104, 40_decoder_prefixes R157: two memory operands; two widths; a size that is not the register's. -/
theorem test_wellFormed_pairDW :
    [Instr.movRmReg (bxMem (some .byte)) (bxMem (some .byte)), .addRmReg false (.reg8 .al) (.reg16 .bx),
      .cmpRmReg (bxMem (some .byte)) (.reg16 .ax), .subRmReg false (bxMem .none) (.reg16 .ax)].all
      (fun i => WellFormed .default i == false) = true := by decide

/-- The second operand of a `MODRM_W` form is the register. -/
theorem test_wellFormed_pairW :
    [Instr.xchgRmReg false (.reg16 .ax) (bxMem (some .word)), .testRmReg (.reg8 .al) (bxMem (some .byte))].all
      (fun i => WellFormed .default i == false) = true := by decide

/-- Operand and immediate of one width; a byte operand takes no word immediate; the logic rows take no
sign-extended byte (30_encoding R128 (b)); a `REG_IMM` destination is a register. -/
theorem test_wellFormed_immediate :
    [Instr.movRmImm (.reg8 .al) (.w 1), .testRmImm (.reg16 .ax) (.b 1), .addRmImm false (.reg8 .al) (.w 1),
      .andRmImm false (.reg16 .ax) (.b 1), .movRegImm (bxMem (some .byte)) (.b 1)].all
      (fun i => WellFormed .default i == false) = true := by decide

/-- 40_decoder_prefixes R153 (b): a lock needs a memory destination. -/
theorem test_wellFormed_lock :
    [Instr.addRmReg true (.reg8 .al) (.reg8 .bl), .incRm true (.reg16 .ax), .not true (.reg8 .al)].all
      (fun i => WellFormed .default i == false) = true := by decide

/-- 30_encoding R95, R96: the displacements a category can have. -/
theorem test_wellFormed_displacement :
    [Instr.lea .ax (.mk .direct .none .none .none), .lea .ax (.mk .direct (.d8 1) .none .none),
      .lea .ax (.mk .bp .none .none .none)].all (fun i => WellFormed .default i == false) = true := by decide

/-- `ACC_MEM`: a direct address of the record's width; a far operand has no size; a word operand; no `pop cs`. -/
theorem test_wellFormed_operand :
    [Instr.movAccMem .byte (.mk .bx .none .none (some .byte)),
      .movMemAcc .word (.mk .direct (.d16 0) .none (some .byte)), .lds .ax (.mk .bx .none .none (some .word)),
      .callFarInd (.mk .bx .none .none (some .word)), .movSregRm .ds (.reg8 .al), .pushRm (.reg8 .al),
      .mul (bxMem .none), .esc 0 (.reg8 .al), .popSreg .cs].all (fun i => WellFormed .default i == false) = true := by decide

/-- 30_encoding R127, R128, R131: a used first byte is no unknown marker; a reserved row and a prefix row are no
record. -/
theorem test_wellFormed_rows :
    [Instr.unknown 0x90, .reserved 0x8F 0x08, .seg .es .lahf, .lock .lahf, .repne .lahf, .rep .lahf].all
      (fun i => WellFormed .default i == false) = true := by decide

/-! ### Decoding -/

/-- Each byte list decodes to its record, with nothing left, and the record's length is the list's. -/
def reads (rows : List (List Byte × Instr)) : Bool :=
  rows.all fun e => match decodeOne .default e.1 with
    | .ok (i, rest) => decide (i = e.2) && rest.isEmpty && i.byteLength == e.1.length
    | .error _ => false

/-- Each byte list is rejected for its reason. -/
def rejects (rows : List (List Byte × Malformed)) : Bool :=
  rows.all fun e => match decodeOne .default e.1 with
    | .ok _ => false
    | .error r => decide (r = e.2)

/-- The prefix row folds into `lock add word es:[bx], ax`. -/
def lockRow (i : Instr) : Bool :=
  match i.fold .default with
  | .ok j => decide (j = .addRmReg true (.mem (.mk .bx .none (some .es) (some .word))) (.reg16 .ax))
  | .error _ => false

/-- V40-1 to V40-60: every kind of the family, by the words of the spec's decoder vectors. -/
theorem test_decode_dataTransfer :
    reads [([0x89, 0xD8], .movRmReg (.reg16 .ax) (.reg16 .bx)),
      ([0x8A, 0x26, 0xFE, 0x00], .movRmReg (.reg8 .ah) (.mem (.mk .direct (.d16 0xFE) .none (some .byte)))),
      ([0x8B, 0x86, 0x7F, 0xFF], .movRmReg (.reg16 .ax) (.mem (.mk .bp (.d16 0xFF7F) .none (some .word)))),
      ([0xC6, 0x06, 0x00, 0x12, 0x34], .movRmImm (.mem (.mk .direct (.d16 0x1200) .none (some .byte))) (.b 0x34)),
      ([0xC7, 0x47, 0x02, 0x10, 0x00], .movRmImm (.mem (.mk .bx (.d8 0x2) .none (some .word))) (.w 0x10)),
      ([0xB0, 0xFF], .movRegImm (.reg8 .al) (.b 0xFF)),
      ([0xA0, 0x00, 0x80], .movAccMem .byte (.mk .direct (.d16 0x8000) .none (some .byte))),
      ([0xA2, 0xFF, 0xFF], .movMemAcc .byte (.mk .direct (.d16 0xFFFF) .none (some .byte)))] = true ∧
    reads [([0x8E, 0xD8], .movSregRm .ds (.reg16 .ax)), ([0x8C, 0xC8], .movRmSreg (.reg16 .ax) .cs),
      ([0xFF, 0x36, 0xAA, 0x55], .pushRm (.mem (.mk .direct (.d16 0x55AA) .none (some .word)))),
      ([0x50], .pushReg .ax), ([0x06], .pushSreg .es),
      ([0x8F, 0x06, 0xAA, 0x55], .popRm (.mem (.mk .direct (.d16 0x55AA) .none (some .word)))),
      ([0x58], .popReg .ax), ([0x07], .popSreg .es)] = true ∧
    reads [([0x86, 0x07], .xchgRmReg false (.mem (.mk .bx .none .none (some .byte))) (.reg8 .al)),
      ([0x90], .xchgAccReg .ax), ([0xE4, 0x60], .inFixed .byte 0x60), ([0xEC], .inVar .byte),
      ([0xE6, 0xFF], .outFixed .byte 0xFF), ([0xEE], .outVar .byte), ([0xD7], .xlat),
      ([0x8D, 0x40, 0x02], .lea .ax (.mk .bxSi (.d8 0x2) .none .none))] = true ∧
    reads [([0xC5, 0x07], .lds .ax (.mk .bx .none .none .none)),
      ([0xC4, 0x46, 0x0A], .les .ax (.mk .bp (.d8 0xA) .none .none)), ([0x9F], .lahf), ([0x9E], .sahf),
      ([0x9C], .pushf), ([0x9D], .popf)] = true := by decide

/-- V40-61 to V40-117: every kind of the family, by the words of the spec's decoder vectors. -/
theorem test_decode_arithmetic :
    reads [([0x00, 0xD8], .addRmReg false (.reg8 .al) (.reg8 .bl)), ([0x04, 0x01], .addAccImm (.b 0x1)),
      ([0x80, 0x00, 0x01], .addRmImm false (.mem (.mk .bxSi .none .none (some .byte))) (.b 0x1)),
      ([0x81, 0x00, 0xFF, 0x00], .addRmImm false (.mem (.mk .bxSi .none .none (some .word))) (.w 0xFF)),
      ([0x83, 0x00, 0xFF], .addRmImm false (.mem (.mk .bxSi .none .none (some .word))) (.b 0xFF)),
      ([0x10, 0xC1], .adcRmReg false (.reg8 .cl) (.reg8 .al)), ([0x15, 0x00, 0x80], .adcAccImm (.w 0x8000)),
      ([0x83, 0xD1, 0x00], .adcRmImm false (.reg16 .cx) (.b 0x0))] = true ∧
    reads [([0xFE, 0x00], .incRm false (.mem (.mk .bxSi .none .none (some .byte)))), ([0x40], .incReg .ax),
      ([0x37], .aaa), ([0x27], .daa), ([0x28, 0xD8], .subRmReg false (.reg8 .al) (.reg8 .bl)),
      ([0x2C, 0x01], .subAccImm (.b 0x1)), ([0x83, 0xE8, 0x01], .subRmImm false (.reg16 .ax) (.b 0x1)),
      ([0x1A, 0xC4], .sbbRmReg false (.reg8 .al) (.reg8 .ah))] = true ∧
    reads [([0x1D, 0x01, 0x00], .sbbAccImm (.w 0x1)), ([0x83, 0xD8, 0xFF], .sbbRmImm false (.reg16 .ax) (.b 0xFF)),
      ([0xFE, 0x08], .decRm false (.mem (.mk .bxSi .none .none (some .byte)))), ([0x48], .decReg .ax),
      ([0xF6, 0xD8], .neg false (.reg8 .al)), ([0x38, 0xD8], .cmpRmReg (.reg8 .al) (.reg8 .bl)),
      ([0x3C, 0x0D], .cmpAccImm (.b 0xD)),
      ([0x80, 0x3F, 0x00], .cmpRmImm (.mem (.mk .bx .none .none (some .byte))) (.b 0x0))] = true ∧
    reads [([0x3F], .aas), ([0x2F], .das), ([0xF6, 0xE3], .mul (.reg8 .bl)), ([0xF6, 0xEB], .imul (.reg8 .bl)),
      ([0xD4, 0x0A], .aam), ([0xF6, 0xF3], .div (.reg8 .bl)), ([0xF6, 0xFB], .idiv (.reg8 .bl)),
      ([0xD5, 0x0A], .aad)] = true ∧
    reads [([0x98], .cbw), ([0x99], .cwd)] = true := by decide

/-- V40-118 to V40-161: every kind of the family, by the words of the spec's decoder vectors. -/
theorem test_decode_logicShift :
    reads [([0xF6, 0xD0], .not false (.reg8 .al)), ([0xD0, 0xE0], .shl (.reg8 .al) .one),
      ([0xD0, 0xE8], .shr (.reg8 .al) .one), ([0xD0, 0xF8], .sar (.reg8 .al) .one),
      ([0xD0, 0xC0], .rol (.reg8 .al) .one), ([0xD0, 0xC8], .ror (.reg8 .al) .one),
      ([0xD0, 0xD0], .rcl (.reg8 .al) .one), ([0xD0, 0xD8], .rcr (.reg8 .al) .one)] = true ∧
    reads [([0x20, 0xD8], .andRmReg false (.reg8 .al) (.reg8 .bl)), ([0x24, 0x0F], .andAccImm (.b 0xF)),
      ([0x80, 0xE1, 0x7F], .andRmImm false (.reg8 .cl) (.b 0x7F)),
      ([0x84, 0xC0], .testRmReg (.reg8 .al) (.reg8 .al)), ([0xA8, 0x80], .testAccImm (.b 0x80)),
      ([0xF6, 0xC3, 0x01], .testRmImm (.reg8 .bl) (.b 0x1)),
      ([0x08, 0xC0], .orRmReg false (.reg8 .al) (.reg8 .al)), ([0x0C, 0x80], .orAccImm (.b 0x80))] = true ∧
    reads [([0x80, 0xCB, 0x80], .orRmImm false (.reg8 .bl) (.b 0x80)),
      ([0x30, 0xC0], .xorRmReg false (.reg8 .al) (.reg8 .al)), ([0x34, 0xFF], .xorAccImm (.b 0xFF)),
      ([0x80, 0xF3, 0xAA], .xorRmImm false (.reg8 .bl) (.b 0xAA))] = true := by decide

/-- V40-163 to V40-171: every kind of the family, by the words of the spec's decoder vectors. -/
theorem test_decode_string :
    reads [([0xA4], .movs .byte .none), ([0xA6], .cmps .byte .none), ([0xAE], .scas .byte .none),
      ([0xAC], .lods .byte .none), ([0xAA], .stos .byte .none)] = true := by decide

/-- V40-173 to V40-218: every kind of the family, by the words of the spec's decoder vectors. -/
theorem test_decode_controlTransfer :
    reads [([0xE8, 0x04, 0x00], .callNear 0x4), ([0xFF, 0xD0], .callNearInd (.reg16 .ax)),
      ([0x9A, 0x78, 0x56, 0x34, 0x12], .callFar 0x1234 0x5678),
      ([0xFF, 0x18], .callFarInd (.mk .bxSi .none .none .none)), ([0xE9, 0xFB, 0x7F], .jmpNear 0x7FFB),
      ([0xEB, 0x06], .jmpShort 0x6), ([0xFF, 0xE3], .jmpNearInd (.reg16 .bx)),
      ([0xEA, 0x00, 0x00, 0xFF, 0xFF], .jmpFar 0xFFFF 0x0000)] = true ∧
    reads [([0xFF, 0x2C], .jmpFarInd (.mk .si .none .none .none)), ([0xC3], .retNear),
      ([0xC2, 0x04, 0x00], .retNearImm 0x4), ([0xCB], .retFar), ([0xCA, 0x02, 0x00], .retFarImm 0x2),
      ([0x70, 0x00], .jo 0x0), ([0x71, 0x01], .jno 0x1), ([0x72, 0xFE], .jb 0xFE)] = true ∧
    reads [([0x73, 0x7F], .jnb 0x7F), ([0x74, 0x80], .je 0x80), ([0x75, 0x02], .jne 0x2), ([0x76, 0x03], .jbe 0x3),
      ([0x77, 0x04], .jnbe 0x4), ([0x78, 0x05], .js 0x5), ([0x79, 0x06], .jns 0x6), ([0x7A, 0x07], .jp 0x7)] = true ∧
    reads [([0x7B, 0x08], .jnp 0x8), ([0x7C, 0x09], .jl 0x9), ([0x7D, 0x0A], .jnl 0xA), ([0x7E, 0x0B], .jle 0xB),
      ([0x7F, 0x0C], .jnle 0xC), ([0xE2, 0xFC], .loop 0xFC), ([0xE1, 0xFE], .loopz 0xFE),
      ([0xE0, 0xFE], .loopnz 0xFE)] = true ∧
    reads [([0xE3, 0x10], .jcxz 0x10), ([0xCD, 0x21], .int 0x21), ([0xCC], .int3), ([0xCE], .into),
      ([0xCF], .iret)] = true := by decide

/-- V40-219 to V40u-1: every kind of the family, by the words of the spec's decoder vectors. -/
theorem test_decode_processorControl :
    reads [([0xF8], .clc), ([0xF5], .cmc), ([0xF9], .stc), ([0xFC], .cld), ([0xFD], .std), ([0xFA], .cli),
      ([0xFB], .sti), ([0xF4], .hlt)] = true ∧
    reads [([0x9B], .wait), ([0xD8, 0xC1], .esc 0 (.reg16 .cx)),
      ([0xDD, 0x06, 0x34, 0x12], .esc 40 (.mem (.mk .direct (.d16 0x1234) .none .none))),
      ([0x0F], .unknown 0xF)] = true := by decide

/-- V40p: prefixes folded into a record, in either order; the longest instruction. -/
theorem test_decode_folded :
    reads [([0x3E, 0x8B, 0x46, 0x00], .movRmReg (.reg16 .ax) (.mem (.mk .bp (.d8 0x0) (some .ds) (some .word)))),
      ([0x26, 0xA0, 0x34, 0x12], .movAccMem .byte (.mk .direct (.d16 0x1234) (some .es) (some .byte))),
      ([0x36, 0x8D, 0x07], .lea .ax (.mk .bx .none (some .ss) .none)), ([0xF3, 0xA4], .movs .byte .rep),
      ([0xF2, 0xA6], .cmps .byte .repne), ([0xF0, 0x87, 0xC3], .xchgRmReg true (.reg16 .bx) (.reg16 .ax)),
      ([0xF0, 0x26, 0x81, 0x07, 0x34, 0x12], .addRmImm true (.mem (.mk .bx .none (some .es) (some .word))) (.w 0x1234)),
      ([0x26, 0xF0, 0x81, 0x07, 0x34, 0x12], .addRmImm true (.mem (.mk .bx .none (some .es) (some .word))) (.w 0x1234))] = true ∧
    reads [([0xF0, 0x26, 0x81, 0x87, 0x34, 0x12, 0x78, 0x56], .addRmImm true (.mem (.mk .bx (.d16 0x1234) (some .es) (some .word))) (.w 0x5678))] = true := by decide

/-- V40e: one line of each rejection. -/
theorem test_decode_rejects :
    rejects [([0xB8, 0x05], .truncated), ([0x26], .truncated), ([0x8B, 0x86, 0x00], .truncated), ([0xD4], .truncated),
      ([0x26, 0x90], .unconsumedPrefix), ([0x26, 0xA4], .unconsumedPrefix), ([0x2E, 0xD7], .unconsumedPrefix),
      ([0xF3, 0xC3], .unconsumedPrefix), ([0xF0, 0x88, 0x07], .unconsumedPrefix)] = true ∧
    rejects [([0xF0, 0x03, 0x07], .lockNotPermitted), ([0xF0, 0xFE, 0xC0], .lockNotPermitted),
      ([0x26, 0x2E, 0xA0, 0x00, 0x00], .prefixAlreadySet), ([0xF2, 0xF3, 0xA4], .prefixAlreadySet),
      ([0xF0, 0xF0, 0x87, 0x07], .prefixAlreadySet)] = true ∧
    rejects [([0x8F, 0xC8], .reservedEncoding), ([0x83, 0xC8, 0x01], .reservedEncoding), ([0xD1, 0x30], .reservedEncoding),
      ([0xF6, 0xC8, 0x01], .reservedEncoding), ([0xFE, 0x10], .reservedEncoding), ([0xFF, 0xF8], .reservedEncoding),
      ([0x8E, 0xE0], .reservedEncoding), ([0xD5, 0x0B], .reservedEncoding),
      ([0x8D, 0xC0], .registerWhereMemoryRequired), ([0xFF, 0xE8], .registerWhereMemoryRequired)] = true := by decide

/-- With another `LOCKABLE` (00_scope R8, 40_decoder_prefixes R148): no class, and one record, `inc ax`, by itself. -/
theorem test_decode_lockable :
    (match decodeOne (.mk [] [.incRm false (.reg16 .ax)]) [0xF0, 0xFF, 0xC0] with
      | .ok x => decide (x = (.incRm true (.reg16 .ax), []))
      | .error _ => false) = true ∧
    (match decodeOne (.mk [] [.incRm false (.reg16 .ax)]) [0xF0, 0xFF, 0xC1] with
      | .ok _ => false
      | .error r => decide (r = .lockNotPermitted)) = true ∧
    (match decodeOne (.mk [(.xchgRmReg, true)] []) [0xF0, 0x87, 0xC3] with
      | .ok _ => false
      | .error r => decide (r = .lockNotPermitted)) = true := by decide

/-- V40p: an override in front of a lock is the same record as the other way round. -/
theorem test_step_overrideThenLock :
    lockRow (.seg .es (.lock (.addRmReg false (bxMem (some .word)) (.reg16 .ax)))) = true ∧
    lockRow (.lock (.seg .es (.addRmReg false (bxMem (some .word)) (.reg16 .ax)))) = true := by decide

/-- V40s-4, V40s-6: the sweep tiles the program, and stops at the start of the instruction that does not decode. -/
theorem test_sweep :
    (match sweep .default [0xEB, 0x01, 0xB8, 0x40, 0x00] with
      | .ok m => decide (m = [(0, .jmpShort 1), (2, .movRegImm (.reg16 .ax) (.w 0x40))])
      | .error _ => false) = true ∧
    (match sweep .default [0xB8, 0x05, 0x00, 0xB8] with
      | .ok _ => false
      | .error e => decide (e = (.truncated, 3))) = true := by decide

/-- A table word is read from its first byte on; a prefix row and a reserved row are read as themselves (log 7). -/
theorem test_tableWords :
    decodeTableWord 16 0xD889 = some (.movRmReg (.reg16 .ax) (.reg16 .bx)) ∧
    decodeTableWord 8 0xF4 = some .hlt ∧
    decodeTableWord 16 0xA4F3 = some (.rep (.movs .byte .none)) ∧
    decodeTableWord 16 0x088F = some (.reserved 0x8F 0x08) := by decide

/-! ### One step -/

/-- A program at `ip`, with `90` before it, and what the start state names. -/
def start (ip : Word) (bytes : List Byte) (before : List Write) : State :=
  { (commit before State.reset).setIp ip with program := List.replicate ip.toNat 0x90 ++ bytes }

/-- One step gives the start state with these changes, and no other. -/
def lands (s : State) (after : List Write) : Bool :=
  match step s with
  | .next t => decide (t = commit after s)
  | .fault _ => false
  | .refused _ => false

/-- One step changes nothing, and the block is stuck. -/
def sticks (s : State) : Bool :=
  match step s with
  | .next t => decide (t = stuck s)
  | .fault _ => false
  | .refused _ => false

/-- One step raises. -/
def stops (s : State) (f : Fault) : Bool :=
  match step s with
  | .next _ => false
  | .fault g => decide (g = f)
  | .refused _ => false

/-- 43_data_transfer R242, by hand: `mov word [bx+2], 16`. -/
theorem test_movRmImm :
    lands (start 0 [0xC7, 0x47, 0x02, 0x10, 0x00] [.reg .bx 0x10, .mem 0x13 0xFF]) [.ip 5, .mem 0x12 0x10,
      .mem 0x13 0] = true := by decide
/-- V43-4: `mov [bx], ah`. -/
theorem test_movRmReg :
    lands (start 0 [0x88, 0x27] [.reg .ax 0xBEEF, .reg .bx 0x0010]) [.ip 0x2, .mem 0x10 0xBE] = true := by decide
/-- V41-2: `mov ax, es:[bp-2]`. -/
theorem test_movRmReg_es_override :
    lands (start 0 [0x26, 0x8B, 0x46, 0xFE] [.reg .bp 0x0100, .seg .es 0x4000, .seg .ss 0x3000, .mem 0x300FE 0x34,
      .mem 0x300FF 0x12, .mem 0x400FE 0x78, .mem 0x400FF 0x56]) [.ip 0x4, .reg .ax 0x5678] = true := by decide
/-- V43-6: `mov ah, 0x80`. -/
theorem test_movRegImm :
    lands (start 0 [0xB4, 0x80] [.reg .ax 0x1234]) [.ip 0x2, .reg .ax 0x8034] = true := by decide
/-- V43-8: `mov ax, [0x1234]`. -/
theorem test_movAccMem :
    lands (start 0 [0xA1, 0x34, 0x12] [.seg .ds 0x0100, .mem 0x2234 0x78, .mem 0x2235 0x56]) [.ip 0x3,
      .reg .ax 0x5678] = true := by decide
/-- V43-9: `mov [0x1234], al`. -/
theorem test_movMemAcc :
    lands (start 0 [0xA2, 0x34, 0x12] [.reg .ax 0xAA55]) [.ip 0x3, .mem 0x1234 0x55] = true := by decide
/-- V43-12: `mov cs, ax`. -/
theorem test_movSregRm_cs :
    lands (start 0 [0x8E, 0xC8] [.reg .ax 0x4000]) [.ip 0x2, .seg .cs 0x4000] = true := by decide
/-- V43-14: `mov [bx], ds`. -/
theorem test_movRmSreg :
    lands (start 0 [0x8C, 0x1F] [.reg .bx 0x0004, .seg .ds 0x0102]) [.ip 0x2, .mem 0x1024 0x02,
      .mem 0x1025 0x01] = true := by decide
/-- V43-18: `push sp`. -/
theorem test_pushReg_sp :
    lands (start 0 [0x54] [.reg .sp 0x0100]) [.ip 0x1, .reg .sp 0x00FE, .mem 0xFE 0xFE] = true := by decide
/-- V43-17: `push ax`. -/
theorem test_pushReg_odd_sp :
    lands (start 0 [0x50] [.reg .ax 0x1234, .reg .sp 0x0001]) [.ip 0x1, .reg .sp 0xFFFF, .mem 0xFFFF 0x34,
      .mem 0x10000 0x12] = true := by decide
/-- V43-20: `push word [bx]`. -/
theorem test_pushRm :
    lands (start 0 [0xFF, 0x37] [.reg .bx 0x0020, .reg .sp 0x0100, .mem 0x20 0x11, .mem 0x21 0x22]) [.ip 0x2,
      .reg .sp 0x00FE, .mem 0xFE 0x11, .mem 0xFF 0x22] = true := by decide
/-- V43-21: `push cs`. -/
theorem test_pushSreg :
    lands (start 0 [0x0E] [.reg .sp 0x0010, .seg .cs 0xABCD]) [.ip 0x1, .reg .sp 0x000E, .mem 0xE 0xCD,
      .mem 0xF 0xAB] = true := by decide
/-- V43-23: `pop sp`. -/
theorem test_popReg_sp :
    lands (start 0 [0x5C] [.reg .sp 0x00FE, .mem 0xFF 0x20]) [.ip 0x1, .reg .sp 0x2000] = true := by decide
/-- V43-25: `pop word [0x200]`. -/
theorem test_popRm :
    lands (start 0 [0x8F, 0x06, 0x00, 0x02] [.reg .sp 0x00FE, .seg .ss 0x0010, .mem 0x1FE 0x34,
      .mem 0x1FF 0x12]) [.ip 0x4, .reg .sp 0x0100, .mem 0x200 0x34, .mem 0x201 0x12] = true := by decide
/-- V43-27: `pop ds`. -/
theorem test_popSreg :
    lands (start 0 [0x1F] [.reg .sp 0xFFFE, .mem 0xFFFF 0x30]) [.ip 0x1, .reg .sp 0x0000, .seg .ds 0x3000] = true
      := by decide
/-- V43-30: `xchg [bx], al`. -/
theorem test_xchgRmReg :
    lands (start 0 [0x86, 0x07] [.reg .ax 0x12AA, .reg .bx 0x0030, .mem 0x30 0x55]) [.ip 0x2, .reg .ax 0x1255,
      .mem 0x30 0xAA] = true := by decide
/-- V43-31: `lock xchg [bx], ax`. -/
theorem test_lock_xchg :
    lands (start 0 [0xF0, 0x87, 0x07] [.reg .ax 0x0001, .reg .bx 0x0030]) [.ip 0x3, .reg .ax 0x0000,
      .mem 0x30 0x01] = true := by decide
/-- V43-34: `xchg ax, sp`. -/
theorem test_xchgAccReg :
    lands (start 0 [0x94] [.reg .ax 0x0100, .reg .sp 0x0200]) [.ip 0x1, .reg .ax 0x0200, .reg .sp 0x0100] = true
      := by decide
/-- V43-36: `xlat`. -/
theorem test_xlat_wraps :
    lands (start 0 [0xD7] [.reg .ax 0x00FF, .reg .bx 0xFF80, .mem 0x7F 0x42]) [.ip 0x1, .reg .ax 0x0042] = true
      := by decide
/-- V43-38: `lea ax, [bx+si-1]`. -/
theorem test_lea :
    lands (start 0 [0x8D, 0x40, 0xFF] []) [.ip 0x3, .reg .ax 0xFFFF] = true := by decide
/-- V43-43: `lds ax, [0x30]`. -/
theorem test_lds :
    lands (start 0 [0xC5, 0x06, 0x30, 0x00] [.seg .ds 0x0001, .mem 0x40 0x01, .mem 0x42 0x02]) [.ip 0x4,
      .reg .ax 0x0001, .seg .ds 0x0002] = true := by decide
/-- V43-42: `les bx, [bx]`. -/
theorem test_les :
    lands (start 0 [0xC4, 0x1F] [.reg .bx 0x0010, .mem 0x10 0x78, .mem 0x11 0x56, .mem 0x13 0x30]) [.ip 0x2,
      .reg .bx 0x5678, .seg .es 0x3000] = true := by decide
/-- V43-44: `lahf`. -/
theorem test_lahf :
    lands (start 0 [0x9F] [.reg .ax 0x00FF, .flag .CF true, .flag .ZF true]) [.ip 0x1, .reg .ax 0x43FF] = true
      := by decide
/-- V43-47: `sahf`. -/
theorem test_sahf :
    lands (start 0 [0x9E] [.flag .CF true, .flag .PF true, .flag .AF true, .flag .ZF true, .flag .SF true,
      .flag .OF true, .flag .DF true]) [.ip 0x1, .flag .CF false, .flag .PF false, .flag .AF false,
      .flag .ZF false, .flag .SF false] = true := by decide
/-- V43-49: `pushf`. -/
theorem test_pushf :
    lands (start 0 [0x9C] [.reg .sp 0x0100, .flag .CF true, .flag .PF true, .flag .AF true, .flag .ZF true,
      .flag .SF true, .flag .OF true, .flag .IF true, .flag .DF true, .flag .TF true]) [.ip 0x1, .reg .sp 0x00FE,
      .mem 0xFE 0xD7, .mem 0xFF 0xFF] = true := by decide
/-- V43-51: `popf`. -/
theorem test_popf :
    lands (start 0 [0x9D] [.reg .sp 0x00FE, .flag .ZF true, .mem 0xFE 0x01, .mem 0xFF 0x04]) [.ip 0x1,
      .reg .sp 0x0100, .flag .CF true, .flag .ZF false, .flag .DF true] = true := by decide
/-- V44-3: `add [bx], al`. -/
theorem test_addRmReg :
    lands (start 0 [0x00, 0x07] [.reg .ax 0x0080, .reg .bx 0x0010, .mem 0x10 0x80]) [.ip 0x2, .mem 0x10 0x00,
      .flag .CF true, .flag .PF true, .flag .ZF true, .flag .OF true] = true := by decide
/-- V44-7: `add ax, -1 (sign-extended imm8)`. -/
theorem test_addRmImm_sign_extends :
    lands (start 0 [0x83, 0xC0, 0xFF] [.reg .ax 0x0001]) [.ip 0x3, .reg .ax 0x0000, .flag .CF true, .flag .PF true,
      .flag .AF true, .flag .ZF true] = true := by decide
/-- V44-6: `add ax, -1`. -/
theorem test_addAccImm :
    lands (start 0 [0x05, 0xFF, 0xFF] []) [.ip 0x3, .reg .ax 0xFFFF, .flag .PF true, .flag .SF true] = true
      := by decide
/-- V44-12: `adc al, bl`. -/
theorem test_adcRmReg :
    lands (start 0 [0x10, 0xD8] [.reg .ax 0x000F, .flag .CF true]) [.ip 0x2, .reg .ax 0x0010, .flag .CF false,
      .flag .AF true] = true := by decide
/-- V44-14: `adc cx, 0`. -/
theorem test_adcRmImm :
    lands (start 0 [0x83, 0xD1, 0x00] [.reg .cx 0xFFFF, .flag .CF true]) [.ip 0x3, .reg .cx 0x0000, .flag .PF true,
      .flag .AF true, .flag .ZF true] = true := by decide
/-- V44-13: `adc al, -1`. -/
theorem test_adcAccImm :
    lands (start 0 [0x14, 0xFF] [.reg .ax 0x00FF, .flag .CF true]) [.ip 0x2, .flag .PF true, .flag .AF true,
      .flag .SF true] = true := by decide
/-- V44-19: `inc byte [bx]`. -/
theorem test_incRm_byte :
    lands (start 0 [0xFE, 0x07] [.reg .bx 0x0010, .mem 0x10 0xFF]) [.ip 0x2, .mem 0x10 0x00, .flag .PF true,
      .flag .AF true, .flag .ZF true] = true := by decide
/-- V44-15: `inc ax`. -/
theorem test_incReg_keeps_carry :
    lands (start 0 [0x40] [.reg .ax 0xFFFF, .flag .CF true]) [.ip 0x1, .reg .ax 0x0000, .flag .PF true,
      .flag .AF true, .flag .ZF true] = true := by decide
/-- V44-22: `sub al, bl`. -/
theorem test_subRmReg :
    lands (start 0 [0x28, 0xD8] [.reg .ax 0x0080, .reg .bx 0x0001]) [.ip 0x2, .reg .ax 0x007F, .flag .AF true,
      .flag .OF true] = true := by decide
/-- V44-26: `sub ax, 1`. -/
theorem test_subRmImm :
    lands (start 0 [0x83, 0xE8, 0x01] [.reg .ax 0x0001]) [.ip 0x3, .reg .ax 0x0000, .flag .PF true,
      .flag .ZF true] = true := by decide
/-- V44-25: `sub ax, 0x8000`. -/
theorem test_subAccImm :
    lands (start 0 [0x2D, 0x00, 0x80] []) [.ip 0x3, .reg .ax 0x8000, .flag .CF true, .flag .PF true,
      .flag .SF true, .flag .OF true] = true := by decide
/-- V44-29: `sbb al, bl`. -/
theorem test_sbbRmReg :
    lands (start 0 [0x18, 0xD8] [.reg .ax 0x0010, .flag .CF true]) [.ip 0x2, .reg .ax 0x000F, .flag .CF false,
      .flag .PF true, .flag .AF true] = true := by decide
/-- V44-31: `sbb bx, 0`. -/
theorem test_sbbRmImm :
    lands (start 0 [0x83, 0xDB, 0x00] [.reg .bx 0x8000, .flag .CF true]) [.ip 0x3, .reg .bx 0x7FFF,
      .flag .CF false, .flag .PF true, .flag .AF true, .flag .OF true] = true := by decide
/-- V44-30: `sbb al, -1`. -/
theorem test_sbbAccImm :
    lands (start 0 [0x1C, 0xFF] [.flag .CF true]) [.ip 0x2, .flag .PF true, .flag .AF true, .flag .ZF true] = true
      := by decide
/-- V44-35: `dec word [bx]`. -/
theorem test_decRm :
    lands (start 0 [0xFF, 0x0F] [.reg .bx 0x0010, .mem 0x11 0x01]) [.ip 0x2, .mem 0x10 0xFF, .mem 0x11 0x00,
      .flag .PF true, .flag .AF true] = true := by decide
/-- V44-33: `dec ax`. -/
theorem test_decReg :
    lands (start 0 [0x48] [.reg .ax 0x8000, .flag .CF true]) [.ip 0x1, .reg .ax 0x7FFF, .flag .PF true,
      .flag .AF true, .flag .OF true] = true := by decide
/-- V44-40: `neg al`. -/
theorem test_neg :
    lands (start 0 [0xF6, 0xD8] [.reg .ax 0x1280]) [.ip 0x2, .flag .CF true, .flag .SF true, .flag .OF true] = true
      := by decide
/-- V44-45: `cmp ax, [bx]`. -/
theorem test_cmpRmReg :
    lands (start 0 [0x3B, 0x07] [.reg .ax 0x7FFF, .reg .bx 0x0010, .mem 0x10 0xFF, .mem 0x11 0xFF]) [.ip 0x2,
      .flag .CF true, .flag .PF true, .flag .SF true, .flag .OF true] = true := by decide
/-- V44-49: `cmp cx, -1`. -/
theorem test_cmpRmImm :
    lands (start 0 [0x83, 0xF9, 0xFF] [.reg .cx 0xFFFF]) [.ip 0x3, .flag .PF true, .flag .ZF true] = true
      := by decide
/-- V44-47: `cmp ax, 0x8000`. -/
theorem test_cmpAccImm :
    lands (start 0 [0x3D, 0x00, 0x80] [.reg .ax 0x7FFF]) [.ip 0x3, .flag .CF true, .flag .PF true, .flag .SF true,
      .flag .OF true] = true := by decide
/-- V44-53: `aaa`. -/
theorem test_aaa :
    lands (start 0 [0x37] [.reg .ax 0x00FF]) [.ip 0x1, .reg .ax 0x0105, .flag .CF true, .flag .AF true] = true
      := by decide
/-- V44-60: `daa`. -/
theorem test_daa :
    lands (start 0 [0x27] [.reg .ax 0x12A0, .flag .OF true]) [.ip 0x1, .reg .ax 0x1200, .flag .CF true,
      .flag .PF true, .flag .ZF true] = true := by decide
/-- V44-63: `aas`. -/
theorem test_aas :
    lands (start 0 [0x3F] [.flag .AF true]) [.ip 0x1, .reg .ax 0xFF0A, .flag .CF true] = true := by decide
/-- V44-67: `das`. -/
theorem test_das :
    lands (start 0 [0x2F] [.reg .ax 0x009A]) [.ip 0x1, .reg .ax 0x0034, .flag .CF true, .flag .AF true] = true
      := by decide
/-- V44-69: `mul bl`. -/
theorem test_mul_byte :
    lands (start 0 [0xF6, 0xE3] [.reg .ax 0x12FF, .reg .bx 0x00FF]) [.ip 0x2, .reg .ax 0xFE01, .flag .CF true,
      .flag .OF true] = true := by decide
/-- V44-73: `mul word [bx]`. -/
theorem test_mul_word :
    lands (start 0 [0xF7, 0x27] [.reg .ax 0x0002, .reg .bx 0x0010, .mem 0x11 0x80]) [.ip 0x2, .reg .ax 0x0000,
      .reg .dx 0x0001, .flag .CF true, .flag .OF true] = true := by decide
/-- V44-75: `imul bl`. -/
theorem test_imul_byte :
    lands (start 0 [0xF6, 0xEB] [.reg .ax 0x0040, .reg .bx 0x0002]) [.ip 0x2, .reg .ax 0x0080, .flag .CF true,
      .flag .OF true] = true := by decide
/-- V44-78: `imul bx`. -/
theorem test_imul_word :
    lands (start 0 [0xF7, 0xEB] [.reg .ax 0x8000, .reg .bx 0x0002]) [.ip 0x2, .reg .ax 0x0000, .reg .dx 0xFFFF,
      .flag .CF true, .flag .OF true] = true := by decide
/-- V44-81: `aam`. -/
theorem test_aam :
    lands (start 0 [0xD4, 0x0A] [.reg .ax 0x00FF]) [.ip 0x2, .reg .ax 0x1905, .flag .PF true] = true := by decide
/-- V44-83: `aad`. -/
theorem test_aad :
    lands (start 0 [0xD5, 0x0A] [.reg .ax 0xFFFF]) [.ip 0x2, .reg .ax 0x00F5, .flag .PF true,
      .flag .SF true] = true := by decide
/-- V44-85: `div bl`. -/
theorem test_div_byte :
    lands (start 0 [0xF6, 0xF3] [.reg .ax 0x0064, .reg .bx 0x0007]) [.ip 0x2, .reg .ax 0x020E] = true := by decide
/-- V44-92: `div bx`. -/
theorem test_div_word :
    lands (start 0 [0xF7, 0xF3] [.reg .ax 0xFFFF, .reg .bx 0x0010, .flag .CF true, .flag .ZF true]) [.ip 0x2,
      .reg .ax 0x0FFF, .reg .dx 0x000F] = true := by decide
/-- V44-95: `idiv bl`. -/
theorem test_idiv_byte :
    lands (start 0 [0xF6, 0xFB] [.reg .ax 0x0064, .reg .bx 0x00F9]) [.ip 0x2, .reg .ax 0x02F2] = true := by decide
/-- V44-104: `idiv bx`. -/
theorem test_idiv_word :
    lands (start 0 [0xF7, 0xFB] [.reg .ax 0xFF9C, .reg .dx 0xFFFF, .reg .bx 0x0007]) [.ip 0x2, .reg .ax 0xFFF2,
      .reg .dx 0xFFFE] = true := by decide
/-- V44-106: `cbw`. -/
theorem test_cbw :
    lands (start 0 [0x98] [.reg .ax 0x1280]) [.ip 0x1, .reg .ax 0xFF80] = true := by decide
/-- V44-108: `cwd`. -/
theorem test_cwd :
    lands (start 0 [0x99] [.reg .ax 0x8000, .reg .dx 0x1234]) [.ip 0x1, .reg .dx 0xFFFF] = true := by decide
/-- V45-3: `not byte [bx]`. -/
theorem test_not :
    lands (start 0 [0xF6, 0x17] [.reg .bx 0x0010, .mem 0x10 0xAA]) [.ip 0x2, .mem 0x10 0x55] = true := by decide
/-- V45-4: `and ax, bx`. -/
theorem test_andRmReg :
    lands (start 0 [0x21, 0xD8] [.reg .ax 0xFF00, .reg .bx 0x0FF0, .flag .CF true, .flag .AF true,
      .flag .OF true]) [.ip 0x2, .reg .ax 0x0F00, .flag .CF false, .flag .PF true, .flag .OF false] = true
      := by decide
/-- V45-8: `and ax, 0xFFF0`. -/
theorem test_andRmImm :
    lands (start 0 [0x81, 0xE0, 0xF0, 0xFF] [.reg .ax 0x1234]) [.ip 0x4, .reg .ax 0x1230, .flag .PF true] = true
      := by decide
/-- V45-6: `and al, 0x0F`. -/
theorem test_andAccImm :
    lands (start 0 [0x24, 0x0F] [.reg .ax 0x00AB]) [.ip 0x2, .reg .ax 0x000B] = true := by decide
/-- V45-10: `test ax, ax`. -/
theorem test_testRmReg :
    lands (start 0 [0x85, 0xC0] [.reg .ax 0x8000, .flag .CF true]) [.ip 0x2, .flag .CF false, .flag .PF true,
      .flag .SF true] = true := by decide
/-- V45-15: `test byte [bx], 0x0F`. -/
theorem test_testRmImm :
    lands (start 0 [0xF6, 0x07, 0x0F] [.reg .bx 0x0010, .mem 0x10 0xF0]) [.ip 0x3, .flag .PF true,
      .flag .ZF true] = true := by decide
/-- V45-13: `test ax, 0x8000`. -/
theorem test_testAccImm :
    lands (start 0 [0xA9, 0x00, 0x80] [.reg .ax 0x7FFF, .flag .OF true]) [.ip 0x3, .flag .PF true, .flag .ZF true,
      .flag .OF false] = true := by decide
/-- V45-20: `or [bx], ax`. -/
theorem test_orRmReg :
    lands (start 0 [0x09, 0x07] [.reg .ax 0x8001, .reg .bx 0x0010, .mem 0x10 0x10]) [.ip 0x2, .mem 0x10 0x11,
      .mem 0x11 0x80, .flag .PF true, .flag .SF true] = true := by decide
/-- V45-19: `or ax, 1`. -/
theorem test_orRmImm :
    lands (start 0 [0x81, 0xC8, 0x01, 0x00] [.reg .ax 0xFFFE]) [.ip 0x4, .reg .ax 0xFFFF, .flag .PF true,
      .flag .SF true] = true := by decide
/-- V45-18: `or al, 0x80`. -/
theorem test_orAccImm :
    lands (start 0 [0x0C, 0x80] [.reg .ax 0x0001]) [.ip 0x2, .reg .ax 0x0081, .flag .PF true,
      .flag .SF true] = true := by decide
/-- V45-22: `xor al, ah`. -/
theorem test_xorRmReg :
    lands (start 0 [0x30, 0xE0] [.reg .ax 0xFF0F]) [.ip 0x2, .reg .ax 0xFFF0, .flag .PF true,
      .flag .SF true] = true := by decide
/-- V45-25: `xor bl, 0xAA`. -/
theorem test_xorRmImm :
    lands (start 0 [0x80, 0xF3, 0xAA] [.reg .bx 0x00AA]) [.ip 0x3, .reg .bx 0x0000, .flag .PF true,
      .flag .ZF true] = true := by decide
/-- V45-24: `xor ax, -1`. -/
theorem test_xorAccImm :
    lands (start 0 [0x35, 0xFF, 0xFF] [.reg .ax 0x0001]) [.ip 0x3, .reg .ax 0xFFFE, .flag .SF true] = true
      := by decide
/-- V45-78: `shl cl, cl`. -/
theorem test_shl_count_is_operand :
    lands (start 0 [0xD2, 0xE1] [.reg .cx 0x0003]) [.ip 0x2, .reg .cx 0x0018, .flag .PF true] = true := by decide
/-- V45-69: `shr ax, 1`. -/
theorem test_shr :
    lands (start 0 [0xD1, 0xE8] [.reg .ax 0x8000]) [.ip 0x2, .reg .ax 0x4000, .flag .PF true,
      .flag .OF true] = true := by decide
/-- V45-41: `sar bl, cl`. -/
theorem test_sar :
    lands (start 0 [0xD2, 0xFB] [.reg .cx 0x0007, .reg .bx 0x0081, .flag .OF true]) [.ip 0x2, .reg .bx 0x00FF,
      .flag .PF true, .flag .SF true] = true := by decide
/-- V45-71: `rol ax, 1`. -/
theorem test_rol :
    lands (start 0 [0xD1, 0xC0] [.reg .ax 0x4000]) [.ip 0x2, .reg .ax 0x8000, .flag .OF true] = true := by decide
/-- V45-76: `ror word [bx], cl`. -/
theorem test_ror :
    lands (start 0 [0xD3, 0x0F] [.reg .cx 0x0004, .reg .bx 0x0010, .mem 0x10 0x34, .mem 0x11 0x12]) [.ip 0x2,
      .mem 0x10 0x23, .mem 0x11 0x41] = true := by decide
/-- V45-58: `rcl bl, cl`. -/
theorem test_rcl :
    lands (start 0 [0xD2, 0xD3] [.reg .cx 0x0008, .reg .bx 0x0081, .flag .CF true, .flag .OF true]) [.ip 0x2,
      .reg .bx 0x00C0] = true := by decide
/-- V45-61: `rcr bl, 1`. -/
theorem test_rcr :
    lands (start 0 [0xD0, 0xDB] [.reg .bx 0x0081, .flag .CF true]) [.ip 0x2, .reg .bx 0x00C0] = true := by decide
/-- V45-66: `rcr bl, cl`. -/
theorem test_rcr_by_zero :
    lands (start 0 [0xD2, 0xDB] [.reg .bx 0x00AB, .flag .CF true, .flag .OF true]) [.ip 0x2] = true := by decide
/-- V46-2: `movsw`. -/
theorem test_movs_down :
    lands (start 0 [0xA5] [.reg .si 0x0010, .reg .di 0x0020, .flag .DF true, .mem 0x10 0x34,
      .mem 0x11 0x12]) [.ip 0x1, .reg .si 0x000E, .reg .di 0x001E, .mem 0x20 0x34, .mem 0x21 0x12] = true
      := by decide
/-- V46-6: `rep movsb`. -/
theorem test_rep_movs_overlap :
    lands (start 0 [0xF3, 0xA4] [.reg .cx 0x0004, .reg .si 0x0010, .reg .di 0x0011, .mem 0x10 0xAA,
      .mem 0x11 0xBB]) [.ip 0x2, .reg .cx 0x0000, .reg .si 0x0014, .reg .di 0x0015, .mem 0x11 0xAA, .mem 0x12 0xAA,
      .mem 0x13 0xAA, .mem 0x14 0xAA] = true := by decide
/-- V46-9: `cmpsb`. -/
theorem test_cmps :
    lands (start 0 [0xA6] [.reg .si 0x0010, .reg .di 0x0020, .mem 0x10 0x05, .mem 0x20 0x07]) [.ip 0x1,
      .reg .si 0x0011, .reg .di 0x0021, .flag .CF true, .flag .AF true, .flag .SF true] = true := by decide
/-- V46-13: `repe cmpsb`. -/
theorem test_repe_cmps :
    lands (start 0 [0xF3, 0xA6] [.reg .cx 0x0002, .reg .si 0x0010, .reg .di 0x0020, .mem 0x10 0x01, .mem 0x11 0x02,
      .mem 0x20 0x01, .mem 0x21 0x02]) [.ip 0x2, .reg .cx 0x0000, .reg .si 0x0012, .reg .di 0x0022, .flag .PF true,
      .flag .ZF true] = true := by decide
/-- V46-16: `scasw`. -/
theorem test_scas :
    lands (start 0 [0xAF] [.reg .ax 0x0001, .reg .di 0x0020, .mem 0x20 0x02]) [.ip 0x1, .reg .di 0x0022,
      .flag .CF true, .flag .PF true, .flag .AF true, .flag .SF true] = true := by decide
/-- V46-17: `repne scasb`. -/
theorem test_repne_scas :
    lands (start 0 [0xF2, 0xAE] [.reg .cx 0x0010, .reg .di 0x0020, .mem 0x20 0x48, .mem 0x21 0x69,
      .mem 0x22 0x21]) [.ip 0x2, .reg .cx 0x000C, .reg .di 0x0024, .flag .PF true, .flag .ZF true] = true
      := by decide
/-- V46-20: `lodsw`. -/
theorem test_lods :
    lands (start 0 [0xAD] [.reg .si 0x0010, .flag .DF true, .mem 0x10 0x34, .mem 0x11 0x12]) [.ip 0x1,
      .reg .ax 0x1234, .reg .si 0x000E] = true := by decide
/-- V46-21: `rep lodsb`. -/
theorem test_rep_lods :
    lands (start 0 [0xF3, 0xAC] [.reg .cx 0x0003, .reg .si 0x0010, .mem 0x10 0x01, .mem 0x11 0x02,
      .mem 0x12 0x03]) [.ip 0x2, .reg .ax 0x0003, .reg .cx 0x0000, .reg .si 0x0013] = true := by decide
/-- V46-23: `stosw`. -/
theorem test_stos :
    lands (start 0 [0xAB] [.reg .ax 0x12AB, .reg .di 0x0020, .flag .DF true]) [.ip 0x1, .reg .di 0x001E,
      .mem 0x20 0xAB, .mem 0x21 0x12] = true := by decide
/-- V46-25: `rep stosb`. -/
theorem test_rep_stos_wraps :
    lands (start 0 [0xF3, 0xAA] [.reg .ax 0x00FF, .reg .cx 0x0003, .reg .di 0xFFFE, .seg .es 0xF000]) [.ip 0x2,
      .reg .cx 0x0000, .reg .di 0x0001, .mem 0xF0000 0xFF, .mem 0xFFFFE 0xFF, .mem 0xFFFFF 0xFF] = true
      := by decide
/-- V47-1: `call $+4`. -/
theorem test_callNear :
    lands (start 0x10 [0xE8, 0x04, 0x00] [.reg .sp 0x0100]) [.ip 0x17, .reg .sp 0x00FE, .mem 0xFE 0x13] = true
      := by decide
/-- V47-6: `call sp`. -/
theorem test_callNearInd :
    lands (start 0x10 [0xFF, 0xD4] [.reg .sp 0x0100]) [.ip 0x100, .reg .sp 0x00FE, .mem 0xFE 0x12] = true
      := by decide
/-- V47-7: `call 0x1234:0x5678`. -/
theorem test_callFar :
    lands (start 0x10 [0x9A, 0x78, 0x56, 0x34, 0x12] [.reg .sp 0x0100, .seg .cs 0xAAAA]) [.ip 0x5678,
      .reg .sp 0x00FC, .seg .cs 0x1234, .mem 0xFC 0x15, .mem 0xFE 0xAA, .mem 0xFF 0xAA] = true := by decide
/-- V47-8: `call far [bx]`. -/
theorem test_callFarInd :
    lands (start 0x10 [0xFF, 0x1F] [.reg .bx 0x0040, .reg .sp 0x0100, .seg .cs 0x1111, .mem 0x40 0x78,
      .mem 0x41 0x56, .mem 0x42 0x34, .mem 0x43 0x12]) [.ip 0x5678, .reg .sp 0x00FC, .seg .cs 0x1234,
      .mem 0xFC 0x12, .mem 0xFE 0x11, .mem 0xFF 0x11] = true := by decide
/-- V47-10: `jmp $-0x8000`. -/
theorem test_jmpNear :
    lands (start 0 [0xE9, 0x00, 0x80] []) [.ip 0x8003] = true := by decide
/-- V47-13: `jmp $-128`. -/
theorem test_jmpShort :
    lands (start 0x10 [0xEB, 0x80] []) [.ip 0xFF92] = true := by decide
/-- V47-16: `jmp cs:[bx]`. -/
theorem test_jmpNearInd_cs_override :
    lands (start 0 [0x2E, 0xFF, 0x27] [.reg .bx 0x0040, .seg .cs 0x0010, .mem 0x140 0x22,
      .mem 0x141 0x11]) [.ip 0x1122] = true := by decide
/-- V47-17: `jmp 0xFFFF:0x0000`. -/
theorem test_jmpFar :
    lands (start 0 [0xEA, 0x00, 0x00, 0xFF, 0xFF] [.seg .cs 0x1000]) [.ip 0x0, .seg .cs 0xFFFF] = true := by decide
/-- V47-18: `jmp far [bx]`. -/
theorem test_jmpFarInd :
    lands (start 0 [0xFF, 0x2F] [.reg .bx 0x0040, .mem 0x40 0x78, .mem 0x41 0x56, .mem 0x42 0x34,
      .mem 0x43 0x12]) [.ip 0x5678, .seg .cs 0x1234] = true := by decide
/-- V47-19: `ret`. -/
theorem test_retNear :
    lands (start 0 [0xC3] [.reg .sp 0x00FC, .mem 0xFC 0x09]) [.ip 0x9, .reg .sp 0x00FE] = true := by decide
/-- V47-21: `ret 0xFFFF`. -/
theorem test_retNearImm :
    lands (start 0 [0xC2, 0xFF, 0xFF] [.reg .sp 0x0010, .mem 0x10 0x09]) [.ip 0x9, .reg .sp 0x0011] = true
      := by decide
/-- V47-22: `retf`. -/
theorem test_retFar :
    lands (start 0 [0xCB] [.reg .sp 0x00F8, .seg .cs 0x0001, .mem 0xF8 0x78, .mem 0xF9 0x56, .mem 0xFA 0x34,
      .mem 0xFB 0x12]) [.ip 0x5678, .reg .sp 0x00FC, .seg .cs 0x1234] = true := by decide
/-- V47-23: `retf 2`. -/
theorem test_retFarImm :
    lands (start 0 [0xCA, 0x02, 0x00] [.reg .sp 0x00F8, .mem 0xF8 0x78, .mem 0xF9 0x56, .mem 0xFA 0x34,
      .mem 0xFB 0x12]) [.ip 0x5678, .reg .sp 0x00FE, .seg .cs 0x1234] = true := by decide
/-- V47l-6: `loop $-4`. -/
theorem test_loop_from_zero :
    lands (start 0x10 [0xE2, 0xFC] []) [.ip 0xE, .reg .cx 0xFFFF] = true := by decide
/-- V47l-9: `loopz $-4`. -/
theorem test_loopz :
    lands (start 0x10 [0xE1, 0xFC] [.reg .cx 0x0002]) [.ip 0x12, .reg .cx 0x0001] = true := by decide
/-- V47l-11: `loopnz $-4`. -/
theorem test_loopnz :
    lands (start 0x10 [0xE0, 0xFC] [.reg .cx 0x0002]) [.ip 0xE, .reg .cx 0x0001] = true := by decide
/-- V47l-13: `jcxz $+16`. -/
theorem test_jcxz :
    lands (start 0x10 [0xE3, 0x10] []) [.ip 0x22] = true := by decide
/-- V48-1: `clc`. -/
theorem test_clc :
    lands (start 0 [0xF8] [.flag .CF true, .flag .ZF true]) [.ip 0x1, .flag .CF false] = true := by decide
/-- V48-4: `cmc`. -/
theorem test_cmc :
    lands (start 0 [0xF5] []) [.ip 0x1, .flag .CF true] = true := by decide
/-- V48-5: `stc`. -/
theorem test_stc :
    lands (start 0 [0xF9] []) [.ip 0x1, .flag .CF true] = true := by decide
/-- V48-6: `cld`. -/
theorem test_cld :
    lands (start 0 [0xFC] [.flag .DF true]) [.ip 0x1, .flag .DF false] = true := by decide
/-- V48-7: `std`. -/
theorem test_std :
    lands (start 0 [0xFD] []) [.ip 0x1, .flag .DF true] = true := by decide
/-- V48-8: `cli`. -/
theorem test_cli :
    lands (start 0 [0xFA] [.flag .IF true]) [.ip 0x1, .flag .IF false] = true := by decide
/-- V48-9: `sti`. -/
theorem test_sti :
    lands (start 0 [0xFB] []) [.ip 0x1, .flag .IF true] = true := by decide
/-- V43-52: `in al, 0x60`. -/
theorem test_in_stuck :
    sticks (start 0 [0xE4, 0x60] [.reg .ax 0x1234]) = true := by decide
/-- V43-53: `out dx, ax`. -/
theorem test_out_stuck :
    sticks (start 0 [0xEF] [.reg .ax 0x1234, .reg .dx 0x03F8]) = true := by decide
/-- V47l-15: `int 0x21`. -/
theorem test_int_stuck :
    sticks (start 0x10 [0xCD, 0x21] [.reg .sp 0x0100]) = true := by decide
/-- V47l-18: `iret`. -/
theorem test_iret_stuck :
    sticks (start 0x10 [0xCF] [.reg .sp 0x0100]) = true := by decide
/-- V48-10: `hlt`. -/
theorem test_hlt_stuck :
    sticks (start 0 [0xF4] [.reg .ax 0x0001]) = true := by decide
/-- V48-11: `wait`. -/
theorem test_wait_stuck :
    sticks (start 0 [0x9B] []) = true := by decide
/-- V48-13: `esc 40, [0x1234]`. -/
theorem test_esc_stuck :
    sticks (start 0 [0xDD, 0x06, 0x34, 0x12] []) = true := by decide
/-- V48-14: `(not used)`. -/
theorem test_unknown_stuck :
    sticks (start 0 [0x60] []) = true := by decide
/-- V44-88: `div bl`. -/
theorem test_div_zero :
    stops (start 0 [0xF6, 0xF3] [.reg .ax 0x1234]) (.divideError) = true := by decide
/-- V44-97: `idiv bl`. -/
theorem test_idiv_too_small :
    stops (start 0 [0xF6, 0xFB] [.reg .ax 0xFF80, .reg .bx 0x0001]) (.divideError) = true := by decide
/-- V46-26: `rep stosw`. -/
theorem test_rep_stos_fault :
    stops (start 0 [0xF3, 0xAB] [.reg .ax 0x1111, .reg .cx 0x0002, .reg .di 0xFFFD,
      .seg .es 0xF000]) (.addressRange 0x100000 none) = true := by decide
/-- A short jump from `ip = 0x10` by 0x10 is taken with the first flags, not with the second. -/
def jumps (b : Byte) (yes no : List Flag) : Bool :=
  lands (start 0x10 [b, 0x10] (yes.map fun f => .flag f true)) [.ip 0x22] &&
    lands (start 0x10 [b, 0x10] (no.map fun f => .flag f true)) [.ip 0x12]

/-- V47j: the sixteen short conditional jumps. -/
theorem test_conditionalJumps :
    (jumps 0x70 [.OF] [] = true ∧ jumps 0x71 [] [.OF] = true ∧ jumps 0x72 [.CF] [] = true ∧
      jumps 0x73 [] [.CF] = true ∧ jumps 0x74 [.ZF] [] = true ∧ jumps 0x75 [] [.ZF] = true ∧
      jumps 0x76 [.ZF] [] = true ∧ jumps 0x77 [] [.ZF] = true) ∧
    (jumps 0x78 [.SF] [] = true ∧ jumps 0x79 [] [.SF] = true ∧ jumps 0x7A [.PF] [] = true ∧
      jumps 0x7B [] [.PF] = true ∧ jumps 0x7C [.SF] [.SF, .OF] = true ∧ jumps 0x7D [.SF, .OF] [.OF] = true ∧
      jumps 0x7E [.ZF, .SF, .OF] [.SF, .OF] = true ∧ jumps 0x7F [.SF, .OF] [.ZF, .SF, .OF] = true) := by decide

/-- A model whose `SIMULATED` holds every kind (log 9). -/
def withAllKinds (s : State) : State :=
  { s with cfg := { s.cfg with simulated := Config.defaultSimulated ++ [.int, .int3, .into, .iret, .esc] } }

/-- 47_control_transfer R400, by hand, in a model that simulates it: `int 0x21` from `ip` 0x10, with `cs` 0x1111. -/
theorem test_int :
    lands (withAllKinds (start 0x10 [0xCD, 0x21] [.reg .sp 0x100, .seg .cs 0x1111, .flag .IF true, .mem 0x84 0x34,
      .mem 0x85 0x12, .mem 0x86 0x78, .mem 0x87 0x56])) [.ip 0x1234, .seg .cs 0x5678, .reg .sp 0xFA, .mem 0xFE 0x02,
      .mem 0xFF 0xF2, .mem 0xFC 0x11, .mem 0xFD 0x11, .mem 0xFA 0x12, .flag .IF false] = true := by decide

/-- 47_control_transfer R403, by hand, in a model that simulates it: `iret` undoes the entry above. -/
theorem test_iret :
    lands (withAllKinds (start 0 [0xCF] [.reg .sp 0xFA, .seg .cs 0x5678, .mem 0xFE 0x02, .mem 0xFF 0xF2,
      .mem 0xFC 0x11, .mem 0xFD 0x11, .mem 0xFA 0x12])) [.ip 0x12, .seg .cs 0x1111, .reg .sp 0x100,
      .flag .IF true] = true := by decide

/-- 47_control_transfer R401, R402, by hand, in a model that simulates them. -/
theorem test_int3_into :
    lands (withAllKinds (start 0 [0xCC] [.reg .sp 0x100, .mem 0xC 0x34])) [.ip 0x34, .reg .sp 0xFA, .mem 0xFE 0x02,
      .mem 0xFF 0xF0, .mem 0xFA 1] = true ∧
    lands (withAllKinds (start 0 [0xCE] [.reg .sp 0x100, .mem 0x10 0x34])) [.ip 1] = true := by decide

/-- The first step from reset, with no program: no instruction at 0, so the block halts (10_state R36, log 2). -/
theorem test_reset_halts :
    (match step State.reset with
      | .next t => decide (t = { State.reset with condition := .halted })
      | .fault _ => false
      | .refused _ => false) = true := by decide

/-- The next step runs a table word placed where it is fetched (log 2): `add ax, -1` after reset. -/
theorem test_withFetchWord :
    lands (State.reset.withFetchWord 24 0xFFFF05) [.ip 3, .reg .ax 0xFFFF, .flag .PF true, .flag .SF true] = true := by
  decide

/-- 42_alu_flags R208: with `UNDEF_FLAGS = draw` the defined results of `mul bl` stand, whatever is drawn. -/
theorem test_mul_draws :
    (match step { start 0 [0xF6, 0xE3] [.reg .ax 0x10, .reg .bx 0x10] with
        cfg := { Config.default with undefFlags := .draw } } with
      | .next t => t.reg .ax == 0x100 && t.flag .CF && t.flag .OF && t.ip == 2 && t.draws == 1
      | .fault _ => false
      | .refused _ => false) = true := by decide

/-- 10_state R38 to R41 and S3: the diff of `add ax, -1` from zero, as the spec writes it. -/
theorem test_diffEntries :
    (match stepEntries (.addAccImm (.w 0xFFFF)) State.reset with
      | .ok es => decide (es = [.field .ip 0 3, .field (.reg .ax) 0 0xFFFF, .field (.flag .CF) 0 0,
          .field (.flag .PF) 0 1, .field (.flag .AF) 0 0, .field (.flag .ZF) 0 0, .field (.flag .SF) 0 1,
          .field (.flag .OF) 0 0])
      | .error _ => false) = true := by decide

/-- S5: a byte of 300 is rejected, and a byte never written reads as 0 (20_memory R63, R65). -/
theorem test_hostAccess :
    (match hostWriteByte State.reset 0 300 with | .ok _ => false | .error f => decide (f = .addressRange 0 (some 300))) =
      true ∧
    (match hostReadByte State.reset 0xFFFFF with | .ok b => b == 0 | .error _ => false) = true := by decide

/-! ### Witnesses: the hypotheses of each statement, met by a concrete state and operands -/

/-- A state with operands in memory and a stack, every kind simulated. -/
def W : State :=
  withAllKinds (start 0 [0x90] [.reg .ax 0x1234, .reg .bx 0x10, .reg .cx 3, .reg .dx 1, .reg .sp 0x100, .reg .si 0x20,
    .reg .di 0x30, .seg .ds 0x2000, .seg .es 0x3000, .seg .ss 0x1000, .mem 0x20010 0x55, .mem 0x20011 0x66,
    .mem 0x10100 0x77])

/-- The same with `ds`, `es` and `ss` at the top of the space, so that a physical address can be its last byte. -/
def top : State :=
  withAllKinds (start 0 [0x90] [.reg .bx 0xFFF, .reg .sp 0xFFF, .seg .ds 0xFF00, .seg .es 0xFF00, .seg .ss 0xFF00])

/-- `word [bx]`, `byte [bx]`, a far pointer at `[bx]`. -/
def memW : Operand := bxMem (some .word)
def memB : Operand := bxMem (some .byte)
def farEa : Ea := .mk .bx .none .none .none
/-- A direct address of a byte. -/
def dirB : Ea := .mk .direct (.d16 0x10) .none (some .byte)

/-- The longest record: lock, override, displacement and immediate words. -/
def longest : Instr := .addRmImm true (.mem (.mk .bx (.d16 0x1234) (some .es) (some .word))) (.w 0x5678)

theorem witness_DecodeOfEncodeIsTheRecord :
    WellFormed .default longest = true ∧ WellFormed .default (.scas .word .repne) = true ∧
      WellFormed .default (.unknown 0xF1) = true := by decide

theorem witness_DecodedRecordIsWellFormed :
    (match decodeOne .default [0x89, 0xD8, 0x90] with
      | .ok x => decide (x = (.movRmReg (.reg16 .ax) (.reg16 .bx), [0x90]))
      | .error _ => false) = true := by decide

theorem witness_ProperBeginningIsTruncated :
    WellFormed .default longest = true ∧ 0 < (encode longest).length ∧ 7 < (encode longest).length := by decide

theorem witness_SweepTilesTheProgram :
    (match sweep .default [0x90, 0xEB, 0xFE] with
      | .ok m => decide (m[0]? = some (0, .xchgAccReg .ax)) && decide (m[1]? = some (1, .jmpShort 0xFE))
      | .error _ => false) = true := by decide

theorem witness_SweepOfLaidOutRecords : ∀ i ∈ [longest, .lahf, .movs .byte .rep], WellFormed .default i = true := by decide

/-- Each of these pairs is reserved for the reason. -/
def reservedFor (r : Option Malformed) (rows : List (Byte × Byte)) : Bool :=
  rows.all fun e => decide (reservedBy e.1 e.2 = r)

/-- Each clause of the rule at an edge of its range, and its nearest neighbour that is not reserved. -/
theorem witness_ReservedEncodingsAreRejected :
    reservedFor (some .reservedEncoding) [(0x8F, 0x08), (0xC6, 0x08), (0xC7, 0xF8), (0x82, 0x08), (0x83, 0x30),
      (0xD0, 0x30), (0xD3, 0xF7), (0xF6, 0x08)] = true ∧
    reservedFor (some .reservedEncoding) [(0xF7, 0xCF), (0xFE, 0x10), (0xFE, 0xFF), (0xFF, 0x38), (0x8C, 0x20),
      (0x8E, 0xFF), (0xD4, 0x0B), (0xD5, 0x00)] = true ∧
    reservedFor (some .registerWhereMemoryRequired) [(0x8D, 0xC0), (0xC4, 0xFF), (0xC5, 0xC7), (0xFF, 0xD8),
      (0xFF, 0xEF)] = true ∧
    reservedFor none [(0x8F, 0x07), (0x82, 0x00), (0xD0, 0x28), (0xF6, 0x00), (0xFE, 0x08), (0xFF, 0x37), (0x8C, 0x18),
      (0xD4, 0x0A), (0x8D, 0xBF), (0xFF, 0x18)] = true ∧
    (∀ s', (0x8F : Byte) ≠ Sreg.overrideByte s') ∧ (0x8F : Byte) ≠ 0xF0 ∧ (0x8F : Byte) ≠ 0xF2 ∧
    (0x8F : Byte) ≠ 0xF3 := by
  refine ⟨by decide, by decide, by decide, by decide, fun s' => ?_, by decide, by decide, by decide⟩
  cases s' <;> decide

theorem witness_NotUsedBytesAreTheUnknownMarker :
    (0x0F : Byte) ∈ notUsedBytes ∧ (0xF1 : Byte) ∈ notUsedBytes ∧
    (match decodeOne .default [0xF1, 0x90] with
      | .ok x => decide (x = (.unknown 0xF1, [0x90]))
      | .error _ => false) = true := by decide

theorem witness_SecondPrefixOfAClassIsRejected :
    (Ctx.mk (some .es) true .rep).seg ≠ none ∧ (Ctx.mk (some .es) true .rep).lock = true ∧
    (Ctx.mk (some .es) true .rep).rep ≠ .none := by decide

theorem witness_PrefixesAreCheckedAgainstTheBody :
    WellFormed .default .lahf = true ∧ Instr.lahf.mem? = none ∧ Instr.lahf.consumeLock .default = none ∧
    Instr.lahf.consumeRep .rep = none ∧
    WellFormed .default (.incRm false (.reg16 .ax)) = true ∧
    (Instr.incRm false (.reg16 .ax)).consumeLock .default = some (false, .incRm true (.reg16 .ax)) ∧
    WellFormed .default (.incRm false memW) = true ∧ (Instr.incRm false memW).isLocked = false ∧
    (Instr.incRm false memW).consumeLock .default = some (true, .incRm true memW) := by decide

theorem witness_StepRunsTheDecodedInstruction :
    W.condition = .running ∧
    (match sweep W.cfg.lockable W.program with
      | .ok m => mapLookup m W.ip.toNat == some (.xchgAccReg .ax)
      | .error _ => false) = true := by decide

theorem witness_StepRunsTheRecordAtIp :
    (start 1 [0xF8, 0xF9] []).condition = .running ∧
    (∀ j ∈ [Instr.xchgAccReg .ax] ++ Instr.clc :: [Instr.stc], WellFormed W.cfg.lockable j = true) ∧
    (start 1 [0xF8, 0xF9] []).program = ([Instr.xchgAccReg .ax] ++ Instr.clc :: [Instr.stc]).flatMap encode ∧
    (start 1 [0xF8, 0xF9] []).ip.toNat = ([Instr.xchgAccReg .ax].map Instr.byteLength).sum := by decide

theorem witness_EndsOfARun :
    (match sweep W.cfg.lockable (start 0 [0x90, 0xB8] []).program with
      | .ok _ => false
      | .error e => decide (e = (.truncated, 1))) = true ∧
    (match sweep State.reset.cfg.lockable State.reset.program with | .ok m => mapLookup m State.reset.ip.toNat == none | .error _ => false) =
      true ∧
    (stuck W).condition ≠ .running ∧ State.reset.condition = .running := by decide

theorem witness_StepKeepsInvariant :
    W.Inv ∧ (match step W with | .next _ => true | .fault _ => false | .refused _ => false) = true :=
  ⟨⟨by decide, by decide⟩, by decide⟩

theorem witness_InvariantHoldsAtTheStart : W.mem.wf = true ∧ ([0x90] : List Byte).length ≤ 65536 := by decide

theorem witness_UnsimulatedKindIsStuck :
    recordKind .iret = some .iret ∧ .iret ∉ State.reset.cfg.simulated ∧ recordKind .hlt = some .hlt ∧
    .hlt ∉ W.cfg.simulated := by decide

theorem witness_LockHasNoEffectOnTheStep :
    (Instr.incRm false memW).consumeLock .default = some (true, .incRm true memW) ∧
      (Instr.incRm false memW).isLocked = false ∧
    recordKind (.incRm false memW) = some .incRm ∧ .incRm ∈ W.cfg.simulated ∧
    (match exec (.incRm false memW) W with | .next _ => true | .fault _ => false | .refused _ => false) = true ∧
    (match exec (.incRm false memW) top with | .next _ => false | .fault _ => true | .refused _ => false) = true := by
  decide

theorem witness_PrefixRowRunsTheFoldedRecord :
    WellFormed W.cfg.lockable (.movAccMem .byte { dirB with seg := some .es }) = true ∧
    encode (.movAccMem .byte { dirB with seg := some .es }) = Sreg.es.overrideByte :: encode (.movAccMem .byte dirB) ∧
    encode (.incRm true memW) = 0xF0 :: encode (.incRm false memW) ∧
    encode (.scas .byte .repne) = 0xF2 :: encode (.scas .byte .none) ∧
    encode (.stos .byte .rep) = 0xF3 :: encode (.stos .byte .none) ∧
    .movAccMem ∈ W.cfg.simulated ∧ .movRmReg ∈ W.cfg.simulated := by decide

/-- `W` with another `LOCKABLE`: no exchange but one of `ax` and `bx`, and no other record. -/
def Wlock : State :=
  { W with cfg := { W.cfg with lockable := .mk [] [.xchgRmReg false (.reg16 .ax) (.reg16 .bx)] } }

/-- The completion clauses, with the default `LOCKABLE` and with another, which allows one exchange and not the next:
there the lock row is the decode error. -/
theorem witness_PrefixRow_completes :
    (WellFormed W.cfg.lockable (.incRm true memW) = true ∧ recordKind (.incRm false memW) = some .incRm ∧
      .incRm ∈ W.cfg.simulated ∧ (Instr.incRm false memW).mem? = some (.mk .bx .none .none (some .word)) ∧
      accessOk .word (eaPhys W (.mk .bx .none .none (some .word))) = true) ∧
    (WellFormed Wlock.cfg.lockable (.xchgRmReg true (.reg16 .ax) (.reg16 .bx)) = true ∧
      .xchgRmReg ∈ Wlock.cfg.simulated ∧ (Instr.xchgRmReg false (.reg16 .ax) (.reg16 .bx)).mem? = none) ∧
    (WellFormed Wlock.cfg.lockable (.xchgRmReg false (.reg16 .ax) (.reg16 .cx)) = true ∧
      WellFormed Wlock.cfg.lockable (.xchgRmReg true (.reg16 .ax) (.reg16 .cx)) = false) ∧
    (WellFormed W.cfg.lockable (.movRmReg (.reg16 .ax) (.mem (.mk .bx .none (some .es) (some .word)))) = true ∧
      accessOk .word (eaPhys W (.mk .bx .none (some .es) (some .word))) = true) ∧
    (∀ e ∈ stringInstr .byte .rep, e.2.2.1 ∈ W.cfg.simulated) := by decide

/-- 40_decoder_prefixes R148: the lock row of the record that `LOCKABLE` allows runs it, that of the other raises. -/
theorem test_lockRow_otherLockable :
    (match exec (.lock (.xchgRmReg false (.reg16 .ax) (.reg16 .bx))) Wlock with
      | .next t => t.reg .ax == 0x10 && t.reg .bx == 0x1234 && t.ip == 3
      | .fault _ => false
      | .refused _ => false) = true ∧
    (match exec (.lock (.xchgRmReg false (.reg16 .ax) (.reg16 .cx))) Wlock with
      | .next _ => false
      | .fault f => decide (f = .malformedEncoding .lockNotPermitted 0)
      | .refused _ => false) = true := by decide

/-- Both orders of an override and a lock; a decode that succeeds and one that does not. -/
theorem witness_PrefixRow_order :
    WellFormed W.cfg.lockable (.incRm true (.mem (.mk .bx .none (some .es) (some .word)))) = true ∧
    encode (.incRm true (.mem (.mk .bx .none (some .es) (some .word)))) =
      0xF0 :: Sreg.es.overrideByte :: encode (.incRm false memW) ∧
    (match decodeOne W.cfg.lockable (0xF0 :: encode (.incRm false memW)) with
      | .ok x => decide (x = (.incRm true memW, []))
      | .error _ => false) = true ∧
    (match decodeOne W.cfg.lockable (0xF0 :: encode .lahf) with
      | .ok _ => false
      | .error e => decide (e = .unconsumedPrefix)) = true := by decide

/-- The operands the statements read bytes of: an r/m operand of each width, a memory operand of no size, one of
ESC, a register by its number. -/
theorem witness_Reads :
    (Bare .byte memB ∧ Bare .word memW ∧ Bare .word (.reg16 .si)) ∧ (farEa.isNull = true ∧ farEa.seg = none) ∧
    ((Operand.mem farEa).isEsc = true ∧ (Operand.reg16 .ax).isEsc = true) ∧ catalog .word 7 = .reg16 .di ∧
    (Ea.wf dirB = true ∧ dirB.seg = none ∧ dirB.size = some .byte) ∧ (2, Sreg.ss) ∈ segmentCatalog := by
  refine ⟨⟨⟨by decide, ?_⟩, ⟨by decide, ?_⟩, by decide, ?_⟩, by decide, by decide, by decide, by decide, by decide⟩
  · rintro ea ⟨⟩; rfl
  · rintro ea ⟨⟩; rfl
  · rintro ea ⟨⟩

theorem witness_MovResult :
    W.mem.wf = true ∧
    (WellFormed W.cfg.lockable (.movRmReg memW (.reg16 .ax)) = true ∧ .movRmReg ∈ W.cfg.simulated ∧
      operandOk W (pairWidth memW (.reg16 .ax)) memW = true ∧
      operandOk W (pairWidth memW (.reg16 .ax)) (.reg16 .ax) = true) ∧
    (WellFormed W.cfg.lockable (.movRmImm memB (.b 1)) = true ∧ .movRmImm ∈ W.cfg.simulated ∧
      operandOk W memB.width memB = true) ∧
    (WellFormed W.cfg.lockable (.movRegImm (.reg8 .al) (.b 1)) = true ∧ .movRegImm ∈ W.cfg.simulated) ∧
    (WellFormed W.cfg.lockable (.movAccMem .byte dirB) = true ∧ .movAccMem ∈ W.cfg.simulated ∧
      operandOk W .byte (.mem dirB) = true) ∧
    (WellFormed W.cfg.lockable (.movMemAcc .byte dirB) = true ∧ .movMemAcc ∈ W.cfg.simulated) ∧
    (WellFormed W.cfg.lockable (.movRmSreg memW .cs) = true ∧ .movRmSreg ∈ W.cfg.simulated ∧
      operandOk W .word memW = true) ∧
    (WellFormed W.cfg.lockable (.movSregRm .cs memW) = true ∧ .movSregRm ∈ W.cfg.simulated) := by decide

theorem witness_PushResult :
    W.mem.wf = true ∧ phys (W.seg .ss) (W.reg .sp - 2).toNat + 1 < memSize ∧
    (WellFormed W.cfg.lockable (.pushRm memW) = true ∧ WellFormed W.cfg.lockable (.pushRm (.reg16 .sp)) = true ∧
      .pushRm ∈ W.cfg.simulated ∧
      operandOk W .word memW = true) ∧
    .pushReg ∈ W.cfg.simulated ∧ .pushSreg ∈ W.cfg.simulated ∧ .pushf ∈ W.cfg.simulated := by decide

theorem witness_PopResult :
    W.mem.wf = true ∧ phys (W.seg .ss) (W.reg .sp).toNat + 1 < memSize ∧
    (WellFormed W.cfg.lockable (.popRm memW) = true ∧ WellFormed W.cfg.lockable (.popRm (.reg16 .sp)) = true ∧
      .popRm ∈ W.cfg.simulated ∧
      operandOk W .word memW = true) ∧
    .popReg ∈ W.cfg.simulated ∧ (WellFormed W.cfg.lockable (.popSreg .ss) = true ∧ .popSreg ∈ W.cfg.simulated) ∧
    .popf ∈ W.cfg.simulated := by decide

theorem witness_XchgResult :
    W.mem.wf = true ∧ WellFormed W.cfg.lockable (.xchgRmReg true memB (.reg8 .bl)) = true ∧
      .xchgRmReg ∈ W.cfg.simulated ∧
    operandOk W (pairWidth memB (.reg8 .bl)) memB = true ∧ .xchgAccReg ∈ W.cfg.simulated := by decide

theorem witness_XlatLeaLdsLesResult :
    .xlat ∈ W.cfg.simulated ∧ (WellFormed W.cfg.lockable (.lea .ax farEa) = true ∧ .lea ∈ W.cfg.simulated) ∧
      farOk W farEa = true ∧
    (WellFormed W.cfg.lockable (.lds .ax farEa) = true ∧ .lds ∈ W.cfg.simulated) ∧
    (WellFormed W.cfg.lockable (.les .bx farEa) = true ∧ .les ∈ W.cfg.simulated) := by decide

theorem witness_FlagsWordBits : ∀ k ∈ [1, 3, 5, 12, 15], k ∉ flagPlaces.map (·.2) := by decide

theorem witness_LahfAndSahfResult : .lahf ∈ W.cfg.simulated ∧ .sahf ∈ W.cfg.simulated := by decide

/-- The hypotheses of the two-operand statements, at a memory destination and at a register one. -/
theorem witness_AddAndAdcResult :
    W.mem.wf = true ∧ operandOk W (pairWidth memW (.reg16 .ax)) memW = true ∧
    operandOk W (pairWidth memW (.reg16 .ax)) (.reg16 .ax) = true ∧ operandOk W memW.width memW = true ∧
    (WellFormed W.cfg.lockable (.addRmReg true memW (.reg16 .ax)) = true ∧ .addRmReg ∈ W.cfg.simulated) ∧
    (WellFormed W.cfg.lockable (.adcRmReg false (.reg16 .ax) memW) = true ∧ .adcRmReg ∈ W.cfg.simulated) ∧
    (WellFormed W.cfg.lockable (.addRmImm true memW (.b 0xFF)) = true ∧ .addRmImm ∈ W.cfg.simulated) ∧
    (WellFormed W.cfg.lockable (.adcRmImm false memW (.w 1)) = true ∧ .adcRmImm ∈ W.cfg.simulated) ∧
    .addAccImm ∈ W.cfg.simulated ∧ .adcAccImm ∈ W.cfg.simulated := by decide

theorem witness_SubAndSbbResult :
    W.mem.wf = true ∧ operandOk W (pairWidth memW (.reg16 .ax)) memW = true ∧ operandOk W memW.width memW = true ∧
    (WellFormed W.cfg.lockable (.subRmReg true memW (.reg16 .ax)) = true ∧ .subRmReg ∈ W.cfg.simulated) ∧
    (WellFormed W.cfg.lockable (.sbbRmReg false (.reg16 .ax) memW) = true ∧ .sbbRmReg ∈ W.cfg.simulated) ∧
    (WellFormed W.cfg.lockable (.subRmImm true memW (.b 0xFF)) = true ∧ .subRmImm ∈ W.cfg.simulated) ∧
    (WellFormed W.cfg.lockable (.sbbRmImm false memW (.w 1)) = true ∧ .sbbRmImm ∈ W.cfg.simulated) ∧
    .subAccImm ∈ W.cfg.simulated ∧ .sbbAccImm ∈ W.cfg.simulated := by decide

theorem witness_CmpResult :
    operandOk W (pairWidth (.reg16 .ax) memW) memW = true ∧ operandOk W memB.width memB = true ∧
    (WellFormed W.cfg.lockable (.cmpRmReg (.reg16 .ax) memW) = true ∧ .cmpRmReg ∈ W.cfg.simulated) ∧
    (WellFormed W.cfg.lockable (.cmpRmImm memB (.b 1)) = true ∧ .cmpRmImm ∈ W.cfg.simulated) ∧
      .cmpAccImm ∈ W.cfg.simulated := by
  decide

theorem witness_IncDecNegResult :
    W.mem.wf = true ∧ operandOk W memB.width memB = true ∧
    (WellFormed W.cfg.lockable (.incRm true memB) = true ∧ .incRm ∈ W.cfg.simulated) ∧
    (WellFormed W.cfg.lockable (.decRm false memB) = true ∧ .decRm ∈ W.cfg.simulated) ∧ .incReg ∈ W.cfg.simulated ∧
    .decReg ∈ W.cfg.simulated ∧ (WellFormed W.cfg.lockable (.neg true memB) = true ∧
      .neg ∈ W.cfg.simulated) := by decide

/-- The low digit at 9 and at 10, `al` at 99h and at 9Ah. -/
theorem witness_AsciiAdjust_DecimalAdjust :
    .aaa ∈ W.cfg.simulated ∧ .aas ∈ W.cfg.simulated ∧ .daa ∈ W.cfg.simulated ∧ .das ∈ W.cfg.simulated ∧
    (decide (((W.setReg8 .al 0x99).reg8 .al).toNat % 16 > 9) || (W.setReg8 .al 0x99).flag .AF) = false ∧
    (decide (((W.setReg8 .al 0x9A).reg8 .al).toNat % 16 > 9) || (W.setReg8 .al 0x9A).flag .AF) = true ∧
    (decide (((W.setReg8 .al 0x99).reg8 .al).toNat > 0x99) || (W.setReg8 .al 0x99).flag .CF) = false ∧
    (decide (((W.setReg8 .al 0x9A).reg8 .al).toNat > 0x99) || (W.setReg8 .al 0x9A).flag .CF) = true := by decide

theorem witness_AamAadCbwCwdResult :
    .aam ∈ W.cfg.simulated ∧ .aad ∈ W.cfg.simulated ∧ .cbw ∈ W.cfg.simulated ∧ .cwd ∈ W.cfg.simulated := by decide

theorem witness_MulAndImulResult :
    operandOk W memB.width memB = true ∧ (WellFormed W.cfg.lockable (.mul memB) = true ∧ .mul ∈ W.cfg.simulated) ∧
    (WellFormed W.cfg.lockable (.imul memB) = true ∧ .imul ∈ W.cfg.simulated) := by decide

/-- The largest quotient that fits, the first that does not, and a divisor of 0 (44_arithmetic R308). -/
theorem witness_DivResult :
    (WellFormed W.cfg.lockable (.div (.reg8 .bl)) = true ∧ .div ∈ W.cfg.simulated ∧
      operandOk W (Operand.reg8 .bl).width (.reg8 .bl) = true) ∧
    (0xFFF : Nat) = 255 * 16 + 15 ∧ 15 < 16 ∧ 255 < modulus .byte ∧ 0x1000 ≥ modulus .byte * 16 ∧
    operandVal (W.setReg8 .bl 0) .byte (.reg8 .bl) = 0 ∧ operandVal W .byte (.reg8 .bl) = 16 := by decide

/-- Quotients 127, -127, 128 and -128 of a byte, against the default `IDIV_MIN8` of -127; -32767 and -32768 of a word,
against the default `IDIV_MIN16` of -32767 (44_arithmetic R309). -/
theorem witness_IdivResult :
    (WellFormed W.cfg.lockable (.idiv (.reg8 .bl)) = true ∧ .idiv ∈ W.cfg.simulated) ∧
    WellFormed W.cfg.lockable (.idiv (.reg16 .bx)) = true ∧
    (Int.tdiv 127 1 < (modulus .byte / 2 : Nat) ∧ W.cfg.idivMin8 ≤ Int.tdiv (-127) 1) ∧
    (Int.tdiv 128 1 ≥ (modulus .byte / 2 : Nat) ∧ Int.tdiv (-128) 1 < W.cfg.idivMin8) ∧
    (W.cfg.idivMin16 ≤ Int.tdiv (-32767) 1 ∧ Int.tdiv (-32768) 1 < W.cfg.idivMin16) ∧
    conv .byte (operandVal (W.setReg8 .bl 0) .byte (.reg8 .bl)) = 0 := by decide

theorem witness_AndOrXorResult :
    W.mem.wf = true ∧ operandOk W (pairWidth memW (.reg16 .ax)) memW = true ∧ operandOk W memW.width memW = true ∧
    (WellFormed W.cfg.lockable (.andRmReg true memW (.reg16 .ax)) = true ∧ .andRmReg ∈ W.cfg.simulated) ∧
    (WellFormed W.cfg.lockable (.orRmReg false (.reg16 .ax) memW) = true ∧ .orRmReg ∈ W.cfg.simulated) ∧
    (WellFormed W.cfg.lockable (.xorRmReg false memW (.reg16 .ax)) = true ∧ .xorRmReg ∈ W.cfg.simulated) ∧
    (WellFormed W.cfg.lockable (.andRmImm true memW (.w 1)) = true ∧ .andRmImm ∈ W.cfg.simulated) ∧
    (WellFormed W.cfg.lockable (.orRmImm false memW (.w 1)) = true ∧ .orRmImm ∈ W.cfg.simulated) ∧
    (WellFormed W.cfg.lockable (.xorRmImm false memW (.w 1)) = true ∧ .xorRmImm ∈ W.cfg.simulated) ∧
    .andAccImm ∈ W.cfg.simulated ∧ .orAccImm ∈ W.cfg.simulated ∧ .xorAccImm ∈ W.cfg.simulated := by decide

theorem witness_TestAndNotResult :
    W.mem.wf = true ∧ operandOk W (pairWidth memW (.reg16 .ax)) memW = true ∧ operandOk W memB.width memB = true ∧
    (WellFormed W.cfg.lockable (.testRmReg memW (.reg16 .ax)) = true ∧ .testRmReg ∈ W.cfg.simulated) ∧
    (WellFormed W.cfg.lockable (.testRmImm memB (.b 1)) = true ∧ .testRmImm ∈ W.cfg.simulated) ∧
      .testAccImm ∈ W.cfg.simulated ∧
    (WellFormed W.cfg.lockable (.not true memB) = true ∧ .not ∈ W.cfg.simulated) := by decide

/-- Counts 0, 1 and more than 1, for each of the seven operations. -/
theorem witness_ShiftAndRotateResult :
    W.mem.wf = true ∧ operandOk W memB.width memB = true ∧
    (∀ sh ∈ [ShiftOp.shl, .shr, .sar, .rol, .ror, .rcl, .rcr],
      WellFormed W.cfg.lockable (shiftInstr memB .cl sh).1 = true ∧ (shiftInstr memB .cl sh).2 ∈ W.cfg.simulated) ∧
    ((W.setReg .cx 0x1200).reg .cx).toNat % 256 = 0 ∧ ((W.setReg .cx 0x12FF).reg .cx).toNat % 256 = 255 ∧
    (0xAA, false) = shiftRot .shl .byte 1 (0x55, false) ∧ operandVal W .byte memB = 0x55 := by decide

theorem witness_OneBitSteps : 255 < modulus .byte ∧ 65535 < modulus .word ∧ 0 ≤ msb .byte ∧ 15 ≤ msb .word := by decide

/-- At the width, one more than it, and 0 and 1 for the rotates. -/
theorem witness_ShiftClosedForms :
    255 < modulus .byte ∧ 9 > msb .byte + 1 ∧ 8 ≥ msb .byte + 1 ∧ (1 : Nat) ≥ 1 := by decide

theorem witness_StringElementResult :
    W.mem.wf = true ∧ (.movs ∈ W.cfg.simulated ∧ .cmps ∈ W.cfg.simulated ∧ .scas ∈ W.cfg.simulated ∧
      .lods ∈ W.cfg.simulated ∧ .stos ∈ W.cfg.simulated) ∧
    accessOk .word (phys (W.seg .ds) (W.reg .si).toNat) = true ∧
    accessOk .word (phys (W.seg .es) (W.reg .di).toNat) = true := by decide

/-- A repeat with `cx` 0 and not 0, an element that completes and one that faults, ZF ending it and not. -/
theorem witness_RepeatUnrolls :
    Rep.rep ≠ .none ∧ Rep.repne ≠ .none ∧ (∀ e ∈ stringInstr .word .rep, e.2.2.1 ∈ W.cfg.simulated) ∧
    (W.setReg .cx 0).reg .cx = 0 ∧ W.reg .cx ≠ 0 ∧
    (match exec (.scas .byte .none) W with | .next t => t.flag .ZF == false | .fault _ => false | .refused _ => false) =
      true ∧
    (match exec (.lods .word .none) (top.setReg .si 0xFFF) with
      | .next _ => false | .fault _ => true | .refused _ => false) = true := by decide

theorem witness_RepeatedByteStringCompletes :
    Rep.repne ≠ .none ∧ .movs ∈ W.cfg.simulated ∧ .lods ∈ W.cfg.simulated ∧ .stos ∈ W.cfg.simulated ∧
    .cmps ∈ W.cfg.simulated ∧ .scas ∈ W.cfg.simulated := by decide

theorem witness_CallNearResult :
    W.mem.wf = true ∧ phys (W.seg .ss) (W.reg .sp - 2).toNat + 1 < memSize ∧ .callNear ∈ W.cfg.simulated ∧
    WellFormed W.cfg.lockable (.callNearInd memW) = true ∧ .callNearInd ∈ W.cfg.simulated ∧
      operandOk W .word memW = true := by decide

theorem witness_CallFarResult :
    phys (W.seg .ss) (W.reg .sp - 4).toNat + 1 < memSize ∧ .callFar ∈ W.cfg.simulated ∧
    WellFormed W.cfg.lockable (.callFarInd farEa) = true ∧ .callFarInd ∈ W.cfg.simulated ∧
      farOk W farEa = true := by decide

theorem witness_JmpResult :
    .jmpNear ∈ W.cfg.simulated ∧ .jmpShort ∈ W.cfg.simulated ∧ .jmpFar ∈ W.cfg.simulated ∧
    (WellFormed W.cfg.lockable (.jmpNearInd memW) = true ∧ .jmpNearInd ∈ W.cfg.simulated ∧
      operandOk W .word memW = true) ∧
    (WellFormed W.cfg.lockable (.jmpFarInd farEa) = true ∧ .jmpFarInd ∈ W.cfg.simulated ∧
      farOk W farEa = true) := by decide

theorem witness_RetResult :
    phys (W.seg .ss) (W.reg .sp).toNat + 1 < memSize ∧ phys (W.seg .ss) (W.reg .sp + 2).toNat + 1 < memSize ∧
    (0x77 : Word) = BitVec.ofNat 16 (wordAt W (phys (W.seg .ss) (W.reg .sp).toNat)) ∧
    (0 : Word) = BitVec.ofNat 16 (wordAt W (phys (W.seg .ss) (W.reg .sp + 2).toNat)) ∧
    .retNear ∈ W.cfg.simulated ∧ .retNearImm ∈ W.cfg.simulated ∧ .retFar ∈ W.cfg.simulated ∧
    .retFarImm ∈ W.cfg.simulated := by decide

theorem witness_ConditionalJumpResult :
    (∀ e ∈ conditionTable W 0x80, e.2.2.1 ∈ W.cfg.simulated) ∧ (conditionTable W 0x80).length = 16 := by decide

theorem witness_LoopResult :
    .loop ∈ W.cfg.simulated ∧ .loopz ∈ W.cfg.simulated ∧ .loopnz ∈ W.cfg.simulated ∧ .jcxz ∈ W.cfg.simulated ∧
    (0xFF82 : Word) = W.ip + 2 + (0x80 : Byte).signExtend 16 ∧ (2 : Word) = W.ip + 2 := by decide

theorem witness_InterruptKindsInSimulated :
    W.mem.wf = true ∧ pushOk W 3 = true ∧ popOk W 3 = true ∧ pushOk (top.setReg .sp 0x1001) 3 = false ∧ .int ∈ W.cfg.simulated ∧ .int3 ∈ W.cfg.simulated ∧
    .into ∈ W.cfg.simulated ∧ .iret ∈ W.cfg.simulated ∧ .esc ∈ W.cfg.simulated ∧ W.flag .OF = false ∧
    (W.setFlag .OF true).flag .OF = true := by decide

theorem witness_FlagInstructionResult :
    ∀ k ∈ [Kind.clc, .cmc, .stc, .cld, .std, .cli, .sti], k ∈ W.cfg.simulated := by decide

/-- The last address a word fits at, and the one after it. -/
theorem witness_MemoryWordAccess : W.mem.wf = true ∧ 0xFFFFE + 1 < memSize ∧ 0xFFFFF = memSize - 1 := by decide

theorem witness_HostAccessIsChecked :
    W.mem.wf = true ∧ ((0 : Int) ≤ 1048575 ∧ (1048575 : Int) < 1048576) ∧ (-1 : Int) < 0 ∧ (1048576 : Int) ≤ 1048576 ∧
    ((0 : Int) ≤ 255 ∧ (255 : Int) < 256) ∧ (256 : Int) ≤ 256 := by decide

/-- Each clause at its edge: a word at the last byte; a stack there, at its first and its second word; a far pointer at
the three last addresses; a string element there, repeated or not. -/
theorem witness_AccessBeyondTheSpaceFaults :
    (eaPhys top (.mk .bx .none .none (some .word)) = 0xFFFFF ∧ .movRmReg ∈ top.cfg.simulated) ∧
    (0xFFFFD ≤ eaPhys top (.mk .bx (.d8 0xFE) .none .none) ∧ 0xFFFFD ≤ eaPhys top (.mk .bx (.d8 0xFF) .none .none) ∧
      0xFFFFD ≤ eaPhys top farEa ∧ recordKind (.lds .ax farEa) = some .lds ∧ .lds ∈ top.cfg.simulated) ∧
    (let t := top.setReg .sp 0x1001; phys (t.seg .ss) (t.reg .sp - 2).toNat = 0xFFFFF) ∧
    (let t := top.setReg .sp 0x1003; phys (t.seg .ss) (t.reg .sp - 4).toNat = 0xFFFFF) ∧
    phys (top.seg .ss) (top.reg .sp).toNat = 0xFFFFF ∧
    (let t := top.setReg .sp 0xFFD; phys (t.seg .ss) (t.reg .sp + 2).toNat = 0xFFFFF) ∧
    (let t := (top.setReg .si 0xFFF).setReg .cx 1;
      phys (t.seg .ds) (t.reg .si).toNat = 0xFFFFF ∧ t.reg .cx ≠ 0) ∧
    (let t := top.setReg .di 0xFFF; phys (t.seg .es) (t.reg .di).toNat = 0xFFFFF) := by decide

/-- A size that an operand has, for the width of a memory operand. -/
theorem witness_OperandWidths : (Ea.mk .bx .none .none (some .byte)).size = some .byte := by decide

/-- Both settings; an override and none; a category of each default segment. -/
theorem witness_AddressFormation :
    W.cfg.eaWrap16 = true ∧ (Config.mk false .unchanged (-128) (-32768) 0 [] .default).eaWrap16 = false ∧
    (.bx, [.bx], .ds) ∈ addressTable ∧ (.bpSi, [.bp, .si], .ss) ∈ addressTable ∧ farEa.kind = .bx ∧
    farEa.seg = none ∧ (Ea.mk .bx .none (some .es) .none).seg = some .es := by decide

theorem witness_OnlyTheseKindsWriteSegmentsAndControlFlags :
    recordKind (.xchgAccReg .ax) = some .xchgAccReg ∧
    (match exec (.xchgAccReg .ax) W with | .next _ => true | .fault _ => false | .refused _ => false) = true ∧
    Kind.xchgAccReg ∉ [Kind.movSregRm, .popSreg, .lds, .les, .callFar, .callFarInd, .jmpFar, .jmpFarInd, .retFar,
      .retFarImm, .int, .int3, .into, .iret] ∧
    Kind.xchgAccReg ∉ [Kind.cli, .sti, .popf, .int, .int3, .into, .iret] ∧
    Kind.xchgAccReg ∉ [Kind.cld, .std, .popf, .iret] := by decide

theorem witness_OnlyTheseExceptions : recordKind (.div memB) = some .div := by decide

theorem witness_DiffAppliesToTheNextState :
    W.cfg.undefFlags = .unchanged ∧ recordKind (.addAccImm (.b 1)) = some .addAccImm ∧ .addAccImm ∈ W.cfg.simulated ∧
    (match stepEntries (.addAccImm (.b 1)) W with | .ok es => es.length == 8 | .error _ => false) = true ∧
    (match exec (.addAccImm (.b 1)) W with | .next _ => true | .fault _ => false | .refused _ => false) = true := by
  decide

end Sys2Proof.Tests
end

section
/-! PROOFS. The start of a run (spec 10_state R43 to R47, 70_reset_and_hazards R460, R461): what the default `INIT`
reads as, what `State.boot` sets and keeps, and which kinds the default `SIMULATED` holds (60_exceptions R438). -/

namespace Sys2Proof

/-- The default `SIMULATED` is every kind but the eleven of 60_exceptions R438 and the marker: the enumeration of
`Kind` is walked once, each kind looked up in both lists. -/
theorem Config.mem_defaultSimulated_iff (k : Kind) : k ∈ Config.defaultSimulated ↔
    k ∉ [Kind.inFixed, .inVar, .outFixed, .outVar, .int, .int3, .into, .iret, .hlt, .wait, .esc, .unknown] := by
  cases k <;> decide

end Sys2Proof

namespace Sys2Proof.Machine

/-! ### The default `INIT` -/

@[simp] theorem Regs.zero_get (r : Reg16) : Regs.zero.get r = 0 := by cases r <;> rfl
@[simp] theorem Segs.zero_get (r : Sreg) : Segs.zero.get r = 0 := by cases r <;> rfl
@[simp] theorem Flags.clear_get (f : Flag) : Flags.clear.get f = false := by cases f <;> rfl

@[simp] theorem State.reset_reg (r : Reg16) : State.reset.reg r = 0 := Regs.zero_get r
@[simp] theorem State.reset_seg (r : Sreg) : State.reset.seg r = 0 := Segs.zero_get r
@[simp] theorem State.reset_flag (f : Flag) : State.reset.flag f = false := Flags.clear_get f
@[simp] theorem State.reset_ip : State.reset.ip = 0 := rfl
@[simp] theorem State.reset_byteAt (a : Nat) : State.reset.byteAt a = 0 := rfl
@[simp] theorem State.reset_cfg : State.reset.cfg = Config.default := rfl

/-! ### `boot`: `ip` forced to 0, the program store set, the rest of `INIT` kept -/

@[simp] theorem State.boot_ip (init : State) (p : List Byte) : (init.boot p).ip = 0 := rfl
@[simp] theorem State.boot_program (init : State) (p : List Byte) : (init.boot p).program = p := rfl
@[simp] theorem State.boot_regs (init : State) (p : List Byte) : (init.boot p).regs = init.regs := rfl
@[simp] theorem State.boot_segs (init : State) (p : List Byte) : (init.boot p).segs = init.segs := rfl
@[simp] theorem State.boot_flags (init : State) (p : List Byte) : (init.boot p).flags = init.flags := rfl
@[simp] theorem State.boot_mem (init : State) (p : List Byte) : (init.boot p).mem = init.mem := rfl

/-- Settles O16: the reset state read field by field, the seven default parameters, and the fields of a boot. -/
theorem resetValues : Obligations.ResetValues := by
  refine ⟨State.reset_reg, State.reset_seg, State.reset_flag, State.reset_ip, State.reset_byteAt, State.reset_cfg,
    ?defaults, ?boot⟩
  case defaults => exact ⟨rfl, rfl, rfl, rfl, rfl, rfl, Config.mem_defaultSimulated_iff⟩
  case boot =>
    intro init p
    exact ⟨init.boot_ip p, init.boot_program p, init.boot_regs p, init.boot_segs p, init.boot_flags p,
      init.boot_mem p⟩

end Sys2Proof.Machine
end

section
/-! PROOFS. What is decoded behind an opcode byte: the readers consume as many bytes as the parts of a record count
(30_encoding R94, R95), and what a row of the opcode map must build for the whole record to be one of the spec
(R104). -/

namespace Sys2Proof

/-! ### Steps that can fail -/

theorem bind_eq_ok_iff {ε α β : Type} {x : Except ε α} {f : α → Except ε β} {r : β} :
    x >>= f = .ok r ↔ ∃ a, x = .ok a ∧ f a = .ok r := by
  cases x <;> simp [bind, Except.bind]

theorem bind_eq_error_iff {ε α β : Type} {x : Except ε α} {f : α → Except ε β} {e : ε} :
    x >>= f = .error e ↔ x = .error e ∨ ∃ a, x = .ok a ∧ f a = .error e := by
  cases x <;> simp [bind, Except.bind]

/-! ### Bytes consumed -/

/-- `rest` is what is left of `bs` after `n` bytes. -/
def Consumed (bs rest : List Byte) (n : Nat) : Prop := ∃ pre, bs = pre ++ rest ∧ pre.length = n

theorem Consumed.refl (bs : List Byte) : Consumed bs bs 0 := ⟨[], rfl, rfl⟩

theorem Consumed.cons {bs rest : List Byte} {n : Nat} (h : Consumed bs rest n) (b : Byte) :
    Consumed (b :: bs) rest (1 + n) := by
  obtain ⟨pre, rfl, rfl⟩ := h
  exact ⟨b :: pre, rfl, by simp [Nat.add_comm]⟩

theorem Consumed.trans {bs cs ds : List Byte} {m n : Nat} (h : Consumed bs cs m) (g : Consumed cs ds n) :
    Consumed bs ds (m + n) := by
  obtain ⟨pre, rfl, rfl⟩ := h
  obtain ⟨pre', rfl, rfl⟩ := g
  exact ⟨pre ++ pre', by simp, by simp⟩

theorem Consumed.length_eq {bs rest : List Byte} {n : Nat} (h : Consumed bs rest n) :
    bs.length = n + rest.length := by
  obtain ⟨pre, rfl, rfl⟩ := h
  simp

theorem Consumed.eq_drop {bs rest : List Byte} {n : Nat} (h : Consumed bs rest n) : rest = bs.drop n := by
  obtain ⟨pre, rfl, rfl⟩ := h
  simp

/-- One byte consumed is the first byte. -/
theorem consumed_one_iff {bs rest : List Byte} : Consumed bs rest 1 ↔ ∃ b, bs = b :: rest := by
  simp only [Consumed, List.length_eq_one_iff]
  exact ⟨fun ⟨_, h, b, hb⟩ => ⟨b, by simpa [hb] using h⟩, fun ⟨b, h⟩ => ⟨[b], h, b, rfl⟩⟩

/-! ### What the readers consume (40_decoder_prefixes R154 to R156) -/

theorem readByte_eq_ok {bs rest : List Byte} {b : Byte} (h : readByte bs = .ok (b, rest)) : Consumed bs rest 1 := by
  cases bs with
  | nil => cases h
  | cons _ _ => cases h; exact (Consumed.refl _).cons _

theorem readWord_eq_ok {bs rest : List Byte} {v : Word} (h : readWord bs = .ok (v, rest)) : Consumed bs rest 2 := by
  match bs, h with
  | lo :: hi :: _, h => cases h; exact ((Consumed.refl _).cons hi).cons lo

/-- Every category but the direct address and plain `bp` goes without a displacement (30_encoding R95, R96). -/
theorem Ea.wf_none_iff {k : EaKind} {seg : Option Sreg} {size : Option Width} :
    (Ea.mk k .none seg size).wf = true ↔ k ≠ .direct ∧ k ≠ .bp := by
  cases k <;> simp [Ea.wf]

theorem Ea.wf_d8_iff {k : EaKind} {b : Byte} {seg : Option Sreg} {size : Option Width} :
    (Ea.mk k (.d8 b) seg size).wf = true ↔ k ≠ .direct := by
  cases k <;> simp [Ea.wf]

theorem Ea.wf_d16 (k : EaKind) (v : Word) (seg : Option Sreg) (size : Option Width) :
    (Ea.mk k (.d16 v) seg size).wf = true := by
  cases k <;> rfl

theorem EaKind.ofCode_zero_ne : ∀ rm : BitVec 3, rm ≠ 6 →
    EaKind.ofCode 0 rm ≠ .direct ∧ EaKind.ofCode 0 rm ≠ .bp := by decide

theorem EaKind.ofCode_one_ne : ∀ rm : BitVec 3, EaKind.ofCode 1 rm ≠ .direct := by decide

/-- A displacement is one its category can have, and its bytes are consumed. -/
theorem decodeDisp_eq_ok {mod : BitVec 2} {rm : BitVec 3} {bs rest : List Byte} {d : Disp}
    (h : decodeDisp mod rm bs = .ok (d, rest)) :
    (∀ seg size, (Ea.mk (EaKind.ofCode mod rm) d seg size).wf = true) ∧ Consumed bs rest d.size := by
  unfold decodeDisp at h
  split at h
  case isTrue hm =>
    cases h
    obtain ⟨rfl, hrm⟩ := hm
    exact ⟨fun _ _ => Ea.wf_none_iff.2 (EaKind.ofCode_zero_ne rm hrm), Consumed.refl _⟩
  case isFalse =>
    split at h
    case isTrue hm =>
      subst hm
      match bs, h with
      | b :: _, h =>
        cases h
        exact ⟨fun _ _ => Ea.wf_d8_iff.2 (EaKind.ofCode_one_ne rm), (Consumed.refl _).cons b⟩
    case isFalse =>
      match bs, h with
      | lo :: hi :: _, h => cases h; exact ⟨Ea.wf_d16 _ _, ((Consumed.refl _).cons hi).cons lo⟩

theorem decodeEa_eq_ok {seg : Option Sreg} {size : Option Width} {m : Byte} {bs rest : List Byte} {ea : Ea}
    (h : decodeEa seg size m bs = .ok (ea, rest)) :
    ea.wf = true ∧ ea.seg = seg ∧ ea.size = size ∧ Consumed (m :: bs) rest ea.length := by
  unfold decodeEa at h
  split at h
  next disp _ hd =>
    cases h
    obtain ⟨hwf, hc⟩ := decodeDisp_eq_ok hd
    exact ⟨hwf seg size, rfl, rfl, hc.cons m⟩
  next => cases h

/-- The r/m operands of an `operandSize`: those of a width, or the ones of ESC (40_decoder_prefixes R154, R157). -/
def Operand.isOf : Option Width → Operand → Bool
  | some w, op => op.isAt w
  | none, op => op.isEsc

theorem regOperand_isOf (size : Option Width) (n : BitVec 3) : (regOperand (size.getD .word) n).isOf size = true := by
  match size with
  | some .byte => rfl
  | some .word => rfl
  | none => rfl

theorem Operand.mem_isOf {ea : Ea} (h : ea.wf = true) : (Operand.mem ea).isOf ea.size = true := by
  cases hs : ea.size <;> simp [Operand.isOf, Operand.isAt, Operand.isEsc, Ea.isNull, h, hs]

@[simp] theorem regOperand_ea? (w : Width) (n : BitVec 3) : (regOperand w n).ea? = none := by cases w <;> rfl
@[simp] theorem regOperand_isMem (w : Width) (n : BitVec 3) : (regOperand w n).isMem = false := by cases w <;> rfl
@[simp] theorem regOperand_isAt (w : Width) (n : BitVec 3) : (regOperand w n).isAt w = true := by cases w <;> rfl
@[simp] theorem regOperand_rmLength (w : Width) (n : BitVec 3) : (regOperand w n).rmLength = 1 := by cases w <;> rfl

theorem decodeRm_eq_ok {seg : Option Sreg} {size : Option Width} {m : Byte} {bs rest : List Byte} {op : Operand}
    (h : decodeRm seg size m bs = .ok (op, rest)) :
    op.isOf size = true ∧ (∀ ea, op.ea? = some ea → ea.seg = seg) ∧ Consumed (m :: bs) rest op.rmLength := by
  unfold decodeRm at h
  split at h
  case isTrue =>
    cases h
    exact ⟨regOperand_isOf size _, by simp, by simpa using (Consumed.refl bs).cons m⟩
  case isFalse =>
    split at h
    next ea _ he =>
      cases h
      obtain ⟨hwf, hseg, rfl, hc⟩ := decodeEa_eq_ok he
      exact ⟨Operand.mem_isOf hwf, by rintro _ ⟨⟩; exact hseg, hc⟩
    next => cases h

/-! ### What a row of the opcode map builds -/

/-- A record of the body's own bytes: well-formed whatever `LOCKABLE` is, with no lock and no repeat, with the memory
operand `m` and `n` bytes long (30_encoding R93, R104). -/
structure IsBody (i : Instr) (m : Option Ea) (n : Nat) : Prop where
  wf         : ∀ lk, WellFormed lk i = true
  mem        : i.mem? = m := by rfl
  length     : i.bodyLength = n := by rfl
  unlocked   : i.isLocked = false := by rfl
  unrepeated : i.repField = .none := by rfl

theorem Operand.rmLength_pos (op : Operand) : 1 ≤ op.rmLength := by
  cases op <;> simp [Operand.rmLength, Ea.length]

/-- What the ModRM byte selects builds a record of whatever operand and immediate it reads. -/
def Ext.Builds : Ext → Prop
  | .reserved => True
  | .rm size f => ∀ op : Operand, op.isOf size = true → IsBody (f op) op.ea? (1 + op.rmLength)
  | .rmImm8 w f => ∀ (op : Operand) (b : Byte), op.isAt w = true → IsBody (f op b) op.ea? (1 + op.rmLength + 1)
  | .rmImm16 f => ∀ (op : Operand) (v : Word), op.isAt .word = true → IsBody (f op v) op.ea? (1 + op.rmLength + 2)
  | .memOnly f => ∀ ea : Ea, ea.isNull = true → IsBody (f ea) (some ea) (1 + ea.length)

/-- A format builds a record of whatever follows the opcode byte. -/
def Format.Builds : Format → Prop
  | .op i => IsBody i none 1
  | .byte f => ∀ b, IsBody (f b) none 2
  | .word f => ∀ v, IsBody (f v) none 3
  | .far f => ∀ sg off, IsBody (f sg off) none 5
  | .op0A i => IsBody i none 2
  | .accMem w f => ∀ v seg, IsBody (f (Ea.mk .direct (.d16 v) seg (some w)))
      (some (Ea.mk .direct (.d16 v) seg (some w))) 3
  | .modrm sel => ∀ reg, (sel reg).Builds

/-- A prefix, a repeat being one of the two, or a format that builds. -/
def FirstByte.Builds : FirstByte → Prop
  | .seg _ => True
  | .lock => True
  | .rep r => r ≠ .none
  | .body f => f.Builds

/-- What a decoded body is: a record with the pending override on its memory operand, as long as the bytes consumed
with the opcode byte in front of them, whichever byte that is. -/
def Decoded (seg : Option Sreg) (i : Instr) (bs rest : List Byte) : Prop :=
  ∃ m n, IsBody i m n ∧ (∀ ea, m = some ea → ea.seg = seg) ∧ ∀ b : Byte, Consumed (b :: bs) rest n

theorem decodeExt_eq_ok {e : Ext} (he : e.Builds) {seg : Option Sreg} {m : Byte} {bs rest : List Byte} {i : Instr}
    (h : decodeExt seg m bs e = .ok (i, rest)) : Decoded seg i (m :: bs) rest ∧ 2 ≤ i.bodyLength := by
  cases e with
  | reserved => cases h
  | rm size f =>
    simp only [decodeExt, bind_eq_ok_iff, Prod.exists] at h
    obtain ⟨op, rest', hop, h⟩ := h
    cases h
    obtain ⟨hof, hseg, hc⟩ := decodeRm_eq_ok hop
    exact ⟨⟨_, _, he op hof, hseg, hc.cons⟩, by have := op.rmLength_pos; rw [(he op hof).length]; omega⟩
  | rmImm8 w f =>
    simp only [decodeExt, bind_eq_ok_iff, Prod.exists] at h
    obtain ⟨op, rest', hop, b, rest'', hb, h⟩ := h
    cases h
    obtain ⟨hof, hseg, hc⟩ := decodeRm_eq_ok hop
    exact ⟨⟨_, _, he op b hof, hseg, fun b0 => (hc.cons b0).trans (readByte_eq_ok hb)⟩,
      by rw [(he op b hof).length]; omega⟩
  | rmImm16 f =>
    simp only [decodeExt, bind_eq_ok_iff, Prod.exists] at h
    obtain ⟨op, rest', hop, v, rest'', hv, h⟩ := h
    cases h
    obtain ⟨hof, hseg, hc⟩ := decodeRm_eq_ok hop
    exact ⟨⟨_, _, he op v hof, hseg, fun b0 => (hc.cons b0).trans (readWord_eq_ok hv)⟩,
      by rw [(he op v hof).length]; omega⟩
  | memOnly f =>
    simp only [decodeExt] at h
    split at h
    case isTrue => cases h
    case isFalse =>
      simp only [bind_eq_ok_iff, Prod.exists] at h
      obtain ⟨ea, rest', hea, h⟩ := h
      cases h
      obtain ⟨hwf, hseg, hsize, hc⟩ := decodeEa_eq_ok hea
      have hb := he ea (by simp [Ea.isNull, hwf, hsize])
      exact ⟨⟨_, _, hb, by rintro _ ⟨⟩; exact hseg, hc.cons⟩, by rw [hb.length, Ea.length]; omega⟩

/-- What is decoded of a format that builds; a record of one byte is the row itself. -/
theorem decodeBody_eq_ok {f : Format} (hf : f.Builds) {seg : Option Sreg} {bs rest : List Byte} {i : Instr}
    (h : decodeBody seg f bs = .ok (i, rest)) : Decoded seg i bs rest ∧ (f = .op i ∨ 2 ≤ i.bodyLength) := by
  have no_ea : ∀ ea : Ea, none = some ea → ea.seg = seg := by simp
  cases f with
  | op j => cases h; exact ⟨⟨_, _, hf, no_ea, (Consumed.refl bs).cons⟩, .inl rfl⟩
  | byte g =>
    simp only [decodeBody, bind_eq_ok_iff, Prod.exists] at h
    obtain ⟨b, rest', hb, h⟩ := h
    cases h
    exact ⟨⟨_, _, hf b, no_ea, (readByte_eq_ok hb).cons⟩, .inr (hf b).length.ge⟩
  | word g =>
    simp only [decodeBody, bind_eq_ok_iff, Prod.exists] at h
    obtain ⟨v, rest', hv, h⟩ := h
    cases h
    exact ⟨⟨_, _, hf v, no_ea, (readWord_eq_ok hv).cons⟩, .inr (by rw [(hf v).length]; decide)⟩
  | far g =>
    simp only [decodeBody, bind_eq_ok_iff, Prod.exists] at h
    obtain ⟨off, rest', hoff, sg, rest'', hsg, h⟩ := h
    cases h
    exact ⟨⟨_, _, hf sg off, no_ea, ((readWord_eq_ok hoff).trans (readWord_eq_ok hsg)).cons⟩,
      .inr (by rw [(hf sg off).length]; decide)⟩
  | op0A j =>
    simp only [decodeBody, bind_eq_ok_iff, Prod.exists] at h
    obtain ⟨b, rest', hb, h⟩ := h
    split at h
    case isTrue => cases h; exact ⟨⟨_, _, hf, no_ea, (readByte_eq_ok hb).cons⟩, .inr hf.length.ge⟩
    case isFalse => cases h
  | accMem w g =>
    simp only [decodeBody, bind_eq_ok_iff, Prod.exists] at h
    obtain ⟨v, rest', hv, h⟩ := h
    cases h
    exact ⟨⟨_, _, hf v seg, by rintro _ ⟨⟩; rfl, (readWord_eq_ok hv).cons⟩,
      .inr (by rw [(hf v seg).length]; decide)⟩
  | modrm sel =>
    simp only [decodeBody, bind_eq_ok_iff, Prod.exists] at h
    obtain ⟨m, rest', hm, h⟩ := h
    obtain ⟨_, rfl⟩ := consumed_one_iff.1 (readByte_eq_ok hm)
    cases hm
    obtain ⟨hd, hl⟩ := decodeExt_eq_ok (hf _) h
    exact ⟨hd, .inr hl⟩

end Sys2Proof
end

section
/-! PROOFS. Each row of the opcode map builds a record of the spec (30_encoding R104 to R126). A family says once which
operands its record takes (`PairBuilds`, `RmBuilds`, `MemBuilds`, `ImmBuilds`), its rows follow, and the sixteen rows of
the map are put together from them; a record with no operand to check is well-formed by `rfl`. -/

namespace Sys2Proof

/-! ### The rows of the opcode map (30_encoding R106 to R126) -/

@[simp] theorem lockOk_unlocked (lk : Lockable) (k : Kind) (op : Operand) (i : Instr) :
    lockOk lk false k op i = true := rfl

theorem rowsReg_build {f : Reg16 → Instr} (h : ∀ r, IsBody (f r) none 1) : ∀ e ∈ rowsReg f, e.Builds := by
  simp only [rowsReg, List.forall_mem_map]
  exact fun r _ => h r

theorem rowsAcc_build {f : Imm → Instr} (h : ∀ imm, IsBody (f imm) none (1 + imm.size)) :
    ∀ e ∈ rowsAcc f, e.Builds := by
  simp only [rowsAcc, List.forall_mem_cons]
  exact ⟨fun b => h (.b b), fun v => h (.w v), by simp⟩

/-- A two-operand family builds a record of any two operands the check `p` accepts (30_encoding R104). -/
def PairBuilds (p : Operand → Operand → Bool) (f : Operand → Operand → Instr) : Prop :=
  ∀ op1 op2, p op1 op2 = true → IsBody (f op1 op2) (op1.ea?.or op2.ea?) (1 + pairLength op1 op2)

theorem pairW_regOperand {w : Width} {op : Operand} (h : op.isAt w = true) (n : BitVec 3) :
    pairW op (regOperand w n) = true := by
  cases w <;> simp [pairW, h]

theorem pairDW_of_pairW {op1 op2 : Operand} (h : pairW op1 op2 = true) : pairDW op1 op2 = true := by
  simp only [pairW, Bool.and_eq_true] at h
  simp_all [pairDW]

theorem pairDW_comm (op1 op2 : Operand) : pairDW op1 op2 = pairDW op2 op1 := by
  simp only [pairDW, Bool.and_comm]

theorem rowRmReg_builds {f : Operand → Operand → Instr} (h : PairBuilds pairW f) (w : Width) :
    (rowRmReg w f).Builds := fun reg op hop => by
  simpa [pairLength] using h op (regOperand w reg) (pairW_regOperand hop reg)

theorem pairLength_regOperand (w : Width) (n : BitVec 3) (op : Operand) :
    pairLength (regOperand w n) op = op.rmLength := by
  cases op with
  | reg8 r => exact regOperand_rmLength w n
  | reg16 r => exact regOperand_rmLength w n
  | mem ea => rfl

theorem rowRegRm_builds {f : Operand → Operand → Instr} (h : PairBuilds pairDW f) (w : Width) :
    (rowRegRm w f).Builds := fun reg op hop => by
  have hp : pairDW (regOperand w reg) op = true := by
    rw [pairDW_comm]; exact pairDW_of_pairW (pairW_regOperand hop reg)
  simpa [pairLength_regOperand] using h _ _ hp

theorem rowsW_build {f : Operand → Operand → Instr} (h : PairBuilds pairW f) : ∀ e ∈ rowsW f, e.Builds := by
  simp only [rowsW, List.forall_mem_cons]
  exact ⟨rowRmReg_builds h _, rowRmReg_builds h _, by simp⟩

theorem rowsDW_build {f : Operand → Operand → Instr} (h : PairBuilds pairDW f) : ∀ e ∈ rowsDW f, e.Builds := by
  have hw : PairBuilds pairW f := fun op1 op2 hp => h op1 op2 (pairDW_of_pairW hp)
  simp only [rowsDW, List.forall_mem_cons]
  exact ⟨rowRmReg_builds hw _, rowRmReg_builds hw _, rowRegRm_builds h _, rowRegRm_builds h _, by simp⟩

theorem rowGroup_builds {exts : List Ext} (h : ∀ x ∈ exts, x.Builds) : (rowGroup exts).Builds := fun reg => by
  dsimp only
  by_cases hr : reg.toNat < exts.length
  · rw [List.getD_eq_getElem _ _ hr]; exact h _ (List.getElem_mem hr)
  · rw [List.getD_eq_default _ _ (Nat.le_of_not_lt hr)]; trivial

/-- A one-operand family builds a record of any operand the check `p` accepts. -/
def RmBuilds (p : Operand → Bool) (f : Operand → Instr) : Prop :=
  ∀ op, p op = true → IsBody (f op) op.ea? (1 + op.rmLength)

theorem Operand.isRm_of_isAt {w : Width} {op : Operand} (h : op.isAt w = true) : op.isRm = true := by
  cases w <;> simp [Operand.isRm, h]

theorem rm_builds {f : Operand → Instr} (h : RmBuilds Operand.isRm f) (w : Width) : (Ext.rm (some w) f).Builds :=
  fun op hop => h op (Operand.isRm_of_isAt hop)

theorem rmWord_builds {f : Operand → Instr} (h : RmBuilds (Operand.isAt .word) f) : 
    (Ext.rm (some .word) f).Builds := h

theorem rowSreg_builds {f : Sreg → Operand → Instr} (h : ∀ s, RmBuilds (Operand.isAt .word) (f s)) :
    (rowSreg f).Builds := fun reg => by
  dsimp only
  split
  · trivial
  · exact h _

/-- A family with a memory operand of no size builds a record of any of them. -/
def MemBuilds (f : Ea → Instr) : Prop := ∀ ea, ea.isNull = true → IsBody (f ea) (some ea) (1 + ea.length)

theorem rowMemOnly_builds {f : Reg16 → Ea → Instr} (h : ∀ r, MemBuilds (f r)) :
    (rowMemOnly f).Builds := fun _ => h _

/-- A family with an operand and an immediate builds a record of any two the check `p` accepts. -/
def ImmBuilds (p : Operand → Imm → Bool) (f : Operand → Imm → Instr) : Prop :=
  ∀ op imm, p op imm = true → IsBody (f op imm) op.ea? (1 + op.rmLength + imm.size)

theorem immSW_of_immW {op : Operand} {imm : Imm} (h : immW op imm = true) : immSW op imm = true := by
  simp only [immW, Bool.or_eq_true, Bool.and_eq_true] at h
  simp only [immSW, Bool.or_eq_true, Bool.and_eq_true]
  exact h.imp_right And.left

theorem immW_of_immSW {f : Operand → Imm → Instr} (h : ImmBuilds immSW f) : ImmBuilds immW f :=
  fun op imm hp => h op imm (immSW_of_immW hp)

theorem extImm8_byte_builds {f : Operand → Imm → Instr} (h : ImmBuilds immW f) : (extImm8 .byte f).Builds :=
  fun op b hop => h op (.b b) (by simp [immW, hop, Imm.isAt])

theorem extImm8_word_builds {f : Operand → Imm → Instr} (h : ImmBuilds immSW f) : (extImm8 .word f).Builds :=
  fun op b hop => h op (.b b) (by simp [immSW, hop])

theorem extImm16_builds {f : Operand → Imm → Instr} (h : ImmBuilds immW f) : (extImm16 f).Builds :=
  fun op v hop => h op (.w v) (by simp [immW, hop, Imm.isAt])

theorem extImm_builds {f : Operand → Imm → Instr} (h : ImmBuilds immW f) (w : Width) : (extImm w f).Builds :=
  match w with
  | .byte => extImm8_byte_builds h
  | .word => extImm16_builds h

/-- The arithmetic rows of the immediate group, and the logic rows where they exist (30_encoding R122, R128 (b)). -/
theorem immGroup_builds {mk : (Operand → Imm → Instr) → Ext} {logic : Bool}
    (arith : ∀ f, ImmBuilds immSW f → (mk f).Builds)
    (log : logic = true → ∀ f, ImmBuilds immW f → (mk f).Builds) : (immGroup mk logic).Builds := by
  have logicExt : ∀ f, ImmBuilds immW f → (if logic then mk f else .reserved : Ext).Builds := fun f hf => by
    split
    · exact log ‹_› f hf
    · trivial
  refine rowGroup_builds ?_
  simp only [List.forall_mem_cons]
  refine ⟨arith _ ?_, logicExt _ ?_, arith _ ?_, arith _ ?_, logicExt _ ?_, arith _ ?_, logicExt _ ?_, arith _ ?_,
    by simp⟩ <;>
  exact fun op imm hp => .mk fun lk => by simp [WellFormed, hp]

theorem shiftGroup_builds (w : Width) (count : ShiftCount) : (shiftGroup w count).Builds := by
  refine rowGroup_builds ?_
  simp only [List.forall_mem_cons]
  refine ⟨rm_builds ?_ w, rm_builds ?_ w, rm_builds ?_ w, rm_builds ?_ w, rm_builds ?_ w, rm_builds ?_ w, trivial,
    rm_builds ?_ w, by simp⟩ <;>
  exact fun op hp => .mk fun _ => hp

theorem mathGroup_builds (w : Width) : (mathGroup w).Builds := by
  refine rowGroup_builds ?_
  simp only [List.forall_mem_cons]
  refine ⟨extImm_builds (fun op imm hp => .mk (i := .testRmImm op imm) fun _ => hp) w, trivial,
    rm_builds ?_ w, rm_builds ?_ w, rm_builds ?_ w, rm_builds ?_ w, rm_builds ?_ w, rm_builds ?_ w, by simp⟩ <;>
  exact fun op hp => .mk fun lk => by simp [WellFormed, hp]

theorem incDecGroup8_builds : incDecGroup8.Builds := by
  refine rowGroup_builds ?_
  simp only [List.forall_mem_cons]
  refine ⟨rm_builds ?_ _, rm_builds ?_ _, by simp⟩ <;>
  exact fun op hp => .mk fun lk => by simp [WellFormed, hp]

theorem incDecGroup16_builds : incDecGroup16.Builds := by
  have mem : MemBuilds .callFarInd ∧ MemBuilds .jmpFarInd :=
    ⟨fun ea h => .mk fun _ => h, fun ea h => .mk fun _ => h⟩
  refine rowGroup_builds ?_
  simp only [List.forall_mem_cons]
  refine ⟨rm_builds ?_ _, rm_builds ?_ _, rmWord_builds ?_, mem.1, rmWord_builds ?_, mem.2, rmWord_builds ?_, trivial,
    by simp⟩ <;>
  exact fun op hp => .mk fun lk => by simp [WellFormed, hp]

theorem rowEsc_builds (x : BitVec 3) : (rowEsc x).Builds := fun _ _ hop => .mk fun _ => hop

theorem opcodeRow0_build : ∀ e ∈ opcodeRow0, e.Builds := by
  simp only [opcodeRow0, List.forall_mem_append, List.forall_mem_cons, List.not_mem_nil, false_implies,
    implies_true, and_true, and_assoc]
  exact ⟨rowsDW_build fun _ _ h => .mk fun _ => by simp [WellFormed, h], rowsAcc_build fun _ => .mk fun _ => rfl,
    .mk fun _ => rfl, .mk fun _ => rfl,
    rowsDW_build fun _ _ h => .mk fun _ => by simp [WellFormed, h], rowsAcc_build fun _ => .mk fun _ => rfl,
    .mk fun _ => rfl, .mk fun _ => rfl⟩

theorem opcodeRow1_build : ∀ e ∈ opcodeRow1, e.Builds := by
  simp only [opcodeRow1, List.forall_mem_append, List.forall_mem_cons, List.not_mem_nil, false_implies,
    implies_true, and_true, and_assoc]
  exact ⟨rowsDW_build fun _ _ h => .mk fun _ => by simp [WellFormed, h], rowsAcc_build fun _ => .mk fun _ => rfl,
    .mk fun _ => rfl, .mk fun _ => rfl,
    rowsDW_build fun _ _ h => .mk fun _ => by simp [WellFormed, h], rowsAcc_build fun _ => .mk fun _ => rfl,
    .mk fun _ => rfl, .mk fun _ => rfl⟩

theorem opcodeRow2_build : ∀ e ∈ opcodeRow2, e.Builds := by
  simp only [opcodeRow2, List.forall_mem_append, List.forall_mem_cons, List.not_mem_nil, false_implies,
    implies_true, and_true, and_assoc]
  exact ⟨rowsDW_build fun _ _ h => .mk fun _ => by simp [WellFormed, h], rowsAcc_build fun _ => .mk fun _ => rfl,
    trivial, .mk fun _ => rfl,
    rowsDW_build fun _ _ h => .mk fun _ => by simp [WellFormed, h], rowsAcc_build fun _ => .mk fun _ => rfl,
    trivial, .mk fun _ => rfl⟩

theorem opcodeRow3_build : ∀ e ∈ opcodeRow3, e.Builds := by
  simp only [opcodeRow3, List.forall_mem_append, List.forall_mem_cons, List.not_mem_nil, false_implies,
    implies_true, and_true, and_assoc]
  exact ⟨rowsDW_build fun _ _ h => .mk fun _ => by simp [WellFormed, h], rowsAcc_build fun _ => .mk fun _ => rfl,
    trivial, .mk fun _ => rfl,
    rowsDW_build fun _ _ h => .mk fun _ => h, rowsAcc_build fun _ => .mk fun _ => rfl,
    trivial, .mk fun _ => rfl⟩

theorem opcodeRow4_build : ∀ e ∈ opcodeRow4, e.Builds :=
  List.forall_mem_append.2 ⟨rowsReg_build fun _ => .mk fun _ => rfl, rowsReg_build fun _ => .mk fun _ => rfl⟩

theorem opcodeRow5_build : ∀ e ∈ opcodeRow5, e.Builds :=
  List.forall_mem_append.2 ⟨rowsReg_build fun _ => .mk fun _ => rfl, rowsReg_build fun _ => .mk fun _ => rfl⟩

theorem opcodeRow6_build : ∀ e ∈ opcodeRow6, e.Builds := by
  have h : ∀ b ∈ [0x60, 0x61, 0x62, 0x63, 0x64, 0x65, 0x66, 0x67, 0x68, 0x69, 0x6A, 0x6B, 0x6C, 0x6D, 0x6E, 0x6F],
    isNotUsed b = true := by decide
  exact List.forall_mem_map.2 fun b hb => .mk fun _ => h b hb

theorem opcodeRow7_build : ∀ e ∈ opcodeRow7, e.Builds := by
  simp only [opcodeRow7, List.forall_mem_map, List.forall_mem_cons, List.not_mem_nil, false_implies,
    implies_true, and_true]
  and_intros <;> exact fun _ => .mk fun _ => rfl

theorem opcodeRow8_build : ∀ e ∈ opcodeRow8, e.Builds := by
  simp only [opcodeRow8, List.forall_mem_append, List.forall_mem_cons, List.not_mem_nil, false_implies,
    implies_true, and_true, and_assoc]
  refine ⟨immGroup_builds (fun _ h => extImm8_byte_builds (immW_of_immSW h)) fun _ _ => extImm8_byte_builds,
    immGroup_builds (fun _ h => extImm16_builds (immW_of_immSW h)) fun _ _ => extImm16_builds,
    immGroup_builds (fun _ h => extImm8_byte_builds (immW_of_immSW h)) (by simp),
    immGroup_builds (fun _ => extImm8_word_builds) (by simp),
    rowsW_build fun _ _ h => .mk fun _ => h, rowsW_build fun _ _ h => .mk fun _ => by simp [WellFormed, h],
    rowsDW_build fun _ _ h => .mk fun _ => h, rowSreg_builds fun s op h => .mk (i := .movRmSreg op s) fun _ => h,
    rowMemOnly_builds fun _ _ h => .mk fun _ => h, rowSreg_builds fun _ _ h => .mk fun _ => h, ?popRm⟩
  case popRm =>
    exact rowGroup_builds (List.forall_mem_singleton.2 (rmWord_builds fun _ h => .mk fun _ => h))

theorem opcodeRow9_build : ∀ e ∈ opcodeRow9, e.Builds := by
  simp only [opcodeRow9, List.forall_mem_append, List.forall_mem_cons, List.not_mem_nil, false_implies,
    implies_true, and_true]
  exact ⟨rowsReg_build fun _ => .mk fun _ => rfl, .mk fun _ => rfl, .mk fun _ => rfl, fun _ _ => .mk fun _ => rfl,
    .mk fun _ => rfl, .mk fun _ => rfl, .mk fun _ => rfl, .mk fun _ => rfl, .mk fun _ => rfl⟩

theorem opcodeRowA_build : ∀ e ∈ opcodeRowA, e.Builds := by
  have acc : ∀ w, (FirstByte.body (.accMem w (.movAccMem w))).Builds ∧
      (FirstByte.body (.accMem w (.movMemAcc w))).Builds := fun w =>
    ⟨fun v seg => .mk fun _ => by simp [WellFormed, Ea.wf], fun v seg => .mk fun _ => by simp [WellFormed, Ea.wf]⟩
  simp only [opcodeRowA, List.forall_mem_append, List.forall_mem_cons, List.not_mem_nil, false_implies,
    implies_true, and_true, and_assoc]
  exact ⟨(acc _).1, (acc _).1, (acc _).2, (acc _).2, .mk fun _ => rfl, .mk fun _ => rfl, .mk fun _ => rfl,
    .mk fun _ => rfl, rowsAcc_build fun _ => .mk fun _ => rfl, .mk fun _ => rfl, .mk fun _ => rfl, .mk fun _ => rfl,
    .mk fun _ => rfl, .mk fun _ => rfl, .mk fun _ => rfl⟩

theorem opcodeRowB_build : ∀ e ∈ opcodeRowB, e.Builds :=
  List.forall_mem_append.2 ⟨List.forall_mem_map.2 fun _ _ _ => .mk fun _ => rfl,
    List.forall_mem_map.2 fun _ _ _ => .mk fun _ => rfl⟩

theorem opcodeRowC_build : ∀ e ∈ opcodeRowC, e.Builds := by
  have mov : ImmBuilds immW .movRmImm := fun _ _ h => .mk fun _ => h
  simp only [opcodeRowC, List.forall_mem_append, List.forall_mem_cons, List.not_mem_nil, false_implies,
    implies_true, and_true, and_assoc]
  exact ⟨.mk fun _ => rfl, .mk fun _ => rfl, fun _ => .mk fun _ => rfl, .mk fun _ => rfl,
    rowMemOnly_builds fun _ _ h => .mk fun _ => h, rowMemOnly_builds fun _ _ h => .mk fun _ => h,
    rowGroup_builds (List.forall_mem_singleton.2 (extImm_builds mov .byte)),
    rowGroup_builds (List.forall_mem_singleton.2 (extImm_builds mov .word)),
    .mk fun _ => rfl, .mk fun _ => rfl, fun _ => .mk fun _ => rfl, .mk fun _ => rfl, .mk fun _ => rfl,
    fun _ => .mk fun _ => rfl, .mk fun _ => rfl, .mk fun _ => rfl⟩

theorem opcodeRowD_build : ∀ e ∈ opcodeRowD, e.Builds := by
  simp only [opcodeRowD, List.forall_mem_append, List.forall_mem_cons, List.not_mem_nil, false_implies,
    implies_true, and_true, List.forall_mem_map,
    and_assoc]
  exact ⟨shiftGroup_builds _ _, shiftGroup_builds _ _, shiftGroup_builds _ _, shiftGroup_builds _ _, .mk fun _ => rfl,
    .mk fun _ => rfl, .mk fun _ => rfl, .mk fun _ => rfl, rowEsc_builds _, rowEsc_builds _, rowEsc_builds _,
    rowEsc_builds _, rowEsc_builds _, rowEsc_builds _, rowEsc_builds _, rowEsc_builds _⟩

theorem opcodeRowE_build : ∀ e ∈ opcodeRowE, e.Builds := by
  simp only [opcodeRowE, List.forall_mem_append, List.forall_mem_cons, List.not_mem_nil, false_implies,
    implies_true, and_true, and_assoc]
  exact ⟨fun _ => .mk fun _ => rfl, fun _ => .mk fun _ => rfl, fun _ => .mk fun _ => rfl, fun _ => .mk fun _ => rfl,
    fun _ => .mk fun _ => rfl, fun _ => .mk fun _ => rfl, fun _ => .mk fun _ => rfl, fun _ => .mk fun _ => rfl,
    fun _ => .mk fun _ => rfl, fun _ => .mk fun _ => rfl, fun _ _ => .mk fun _ => rfl, fun _ => .mk fun _ => rfl,
    .mk fun _ => rfl, .mk fun _ => rfl, .mk fun _ => rfl, .mk fun _ => rfl⟩

theorem opcodeRowF_build : ∀ e ∈ opcodeRowF, e.Builds := by
  simp only [opcodeRowF, List.forall_mem_append, List.forall_mem_cons, List.not_mem_nil, false_implies,
    implies_true, and_true, and_assoc]
  exact ⟨trivial, .mk fun _ => rfl, nofun, nofun, .mk fun _ => rfl, .mk fun _ => rfl, mathGroup_builds _,
    mathGroup_builds _, .mk fun _ => rfl, .mk fun _ => rfl, .mk fun _ => rfl, .mk fun _ => rfl, .mk fun _ => rfl,
    .mk fun _ => rfl, incDecGroup8_builds, incDecGroup16_builds⟩

theorem opcodeMap_builds : ∀ row ∈ opcodeMap, ∀ e ∈ row, e.Builds := by
  simp only [opcodeMap, List.forall_mem_append, List.forall_mem_cons, List.not_mem_nil, false_implies,
    implies_true, and_true, and_assoc]
  exact ⟨opcodeRow0_build, opcodeRow1_build, opcodeRow2_build, opcodeRow3_build, opcodeRow4_build, opcodeRow5_build,
    opcodeRow6_build, opcodeRow7_build, opcodeRow8_build, opcodeRow9_build, opcodeRowA_build, opcodeRowB_build,
    opcodeRowC_build, opcodeRowD_build, opcodeRowE_build, opcodeRowF_build⟩

/-- The opcode map has an entry for each of the 256 first bytes. -/
theorem opcodeMap_full : opcodeMap.length = 16 ∧ ∀ row ∈ opcodeMap, row.length = 16 := by
  refine ⟨rfl, ?_⟩
  simp only [opcodeMap, List.forall_mem_append, List.forall_mem_cons, List.not_mem_nil, false_implies,
    implies_true, and_true]
  and_intros <;> rfl

theorem firstByte_builds (b : Byte) : (firstByte b).Builds := by
  obtain ⟨hlen, hrow⟩ := opcodeMap_full
  have hb : b.toNat / 16 < opcodeMap.length := by have := b.isLt; omega
  have hm := List.getElem_mem hb
  have hn : b.toNat % 16 < opcodeMap[b.toNat / 16].length := by rw [hrow _ hm]; omega
  rw [firstByte, List.getD_eq_getElem _ _ hb, List.getD_eq_getElem _ _ hn]
  exact opcodeMap_builds _ hm _ (List.getElem_mem hn)

end Sys2Proof
end

section
/-! PROOFS. The prefixes pending at the body are folded into its record, and `DecodeOne` answers a well-formed record as
long as the bytes it consumed (30_encoding R94, R104, 40_decoder_prefixes R140 to R151). -/

namespace Sys2Proof

/-! ### The prefixes folded into a record (40_decoder_prefixes R147 to R151) -/

/-- `ConsumeLock` gives a record that `LOCKABLE` holds of, and changes nothing but the lock. -/
theorem Instr.consumeLock_eq_some {lk : Lockable} {i j : Instr} (h : i.consumeLock lk = some (true, j))
    (w : WellFormed lk i = true) :
    WellFormed lk j = true ∧ j.isLocked = true ∧ j.mem? = i.mem? ∧ j.bodyLength = i.bodyLength ∧
      j.repField = i.repField := by
  cases i <;> simp only [Instr.consumeLock, Option.some.injEq, Prod.mk.injEq, reduceCtorEq] at h
  all_goals
    obtain ⟨ha, rfl⟩ := h
    simp only [WellFormed, Bool.and_eq_true] at w
    exact ⟨by simp [WellFormed, lockOk, w.1, ha], rfl, rfl, rfl, rfl⟩

/-- `ConsumeRep` gives a string record, which has no lock, and changes nothing but the repeat. -/
theorem Instr.consumeRep_eq_some {i j : Instr} {r : Rep} (h : i.consumeRep r = some j) :
    (∀ lk, WellFormed lk j = true) ∧ i.isLocked = false ∧ j.isLocked = false ∧ j.mem? = i.mem? ∧
      j.bodyLength = i.bodyLength ∧ j.repField = r := by
  cases i <;> simp only [Instr.consumeRep, Option.some.injEq, reduceCtorEq] at h
  all_goals
    subst h
    exact ⟨fun _ => rfl, rfl, rfl, rfl, rfl, rfl⟩

/-- The first half of `Ctx.finish`: the pending lock is consumed. -/
def Ctx.takeLock (lk : Lockable) (c : Ctx) (i : Instr) : Except Malformed Instr :=
  if c.lock then
    match i.consumeLock lk with
    | some (true, j) => .ok j
    | some (false, _) => .error .lockNotPermitted
    | none => .error .unconsumedPrefix
  else .ok i

/-- The second half of `Ctx.finish`: the override was applied, and the pending repeat is drained. -/
def Ctx.drain (c : Ctx) (i : Instr) : Except Malformed Instr :=
  if c.seg.isSome && i.mem?.isNone then .error .unconsumedPrefix
  else if c.rep = .none then .ok i
  else
    match i.consumeRep c.rep with
    | some j => .ok j
    | none => .error .unconsumedPrefix

theorem Ctx.finish_eq (lk : Lockable) (c : Ctx) (i : Instr) : c.finish lk i = c.takeLock lk i >>= c.drain := by
  obtain ⟨seg, l, r⟩ := c
  cases l with
  | false => rfl
  | true =>
    simp only [Ctx.finish, Ctx.takeLock, if_true]
    rcases i.consumeLock lk with _ | ⟨_ | _, k⟩ <;> rfl

theorem Ctx.takeLock_eq_ok {lk : Lockable} {c : Ctx} {i j : Instr} (h : c.takeLock lk i = .ok j) :
    c.lock = true ∧ i.consumeLock lk = some (true, j) ∨ c.lock = false ∧ j = i := by
  unfold Ctx.takeLock at h
  split at h
  case isTrue hl =>
    split at h
    next hc => cases h; exact .inl ⟨hl, hc⟩
    next => cases h
    next => cases h
  case isFalse hl => cases h; exact .inr ⟨by simpa using hl, rfl⟩

theorem Ctx.drain_eq_ok {c : Ctx} {i j : Instr} (h : c.drain i = .ok j) :
    (c.seg.isSome → i.mem?.isSome) ∧ (c.rep = .none ∧ j = i ∨ i.consumeRep c.rep = some j) := by
  unfold Ctx.drain at h
  split at h
  case isTrue => cases h
  case isFalse hseg =>
    refine ⟨fun hs => by simpa [hs, Option.isSome_iff_ne_none] using hseg, ?_⟩
    split at h
    case isTrue hr => cases h; exact .inl ⟨hr, rfl⟩
    case isFalse =>
      split at h
      next hc => cases h; exact .inr hc
      next => cases h

/-- How many prefixes are pending (30_encoding R131). -/
def Ctx.pending (c : Ctx) : Nat :=
  (if c.lock then 1 else 0) + (if c.seg.isSome then 1 else 0) + (if c.rep = .none then 0 else 1)

/-- The override of a record whose memory operand, where it has one, has the pending override. -/
theorem Instr.segOverride_eq {i : Instr} {seg : Option Sreg} (h : ∀ ea, i.mem? = some ea → ea.seg = seg)
    (g : seg.isSome → i.mem?.isSome) : i.segOverride = seg := by
  unfold Instr.segOverride
  cases hm : i.mem? with
  | none =>
    rw [hm] at g
    cases seg with
    | none => rfl
    | some s => simp at g
  | some ea => exact h ea hm

/-- The record after the body's check: well-formed, and longer than the body by the pending prefixes. -/
theorem Ctx.finish_sound {lk : Lockable} {c : Ctx} {i j : Instr} {m : Option Ea} {n : Nat} (hb : IsBody i m n)
    (hseg : ∀ ea, m = some ea → ea.seg = c.seg) (h : c.finish lk i = .ok j) :
    WellFormed lk j = true ∧ j.byteLength = c.pending + n := by
  obtain ⟨hwf, rfl, rfl, hul, hur⟩ := hb
  rw [Ctx.finish_eq, bind_eq_ok_iff] at h
  obtain ⟨k, hk, h⟩ := h
  obtain ⟨hks, hj⟩ := Ctx.drain_eq_ok h
  have locked : WellFormed lk k = true ∧ k.isLocked = c.lock ∧ k.mem? = i.mem? ∧ k.bodyLength = i.bodyLength ∧
      k.repField = .none := by
    obtain ⟨hl, hk⟩ | ⟨hl, rfl⟩ := Ctx.takeLock_eq_ok hk
    · obtain ⟨kwf, kl, km, kb, kr⟩ := Instr.consumeLock_eq_some hk (hwf lk)
      exact ⟨kwf, kl.trans hl.symm, km, kb, kr.trans hur⟩
    · exact ⟨hwf lk, hul.trans hl.symm, rfl, rfl, hur⟩
  obtain ⟨kwf, kl, km, kb, kr⟩ := locked
  have repeated : WellFormed lk j = true ∧ j.isLocked = c.lock ∧ j.mem? = k.mem? ∧ j.bodyLength = k.bodyLength ∧
      j.repField = c.rep := by
    obtain ⟨hr, rfl⟩ | hj := hj
    · exact ⟨kwf, kl, rfl, rfl, kr.trans hr.symm⟩
    · obtain ⟨jwf, kul, jl, jm, jb, jr⟩ := Instr.consumeRep_eq_some hj
      exact ⟨jwf lk, jl.trans (kul.symm.trans kl), jm, jb, jr⟩
  obtain ⟨jwf, jl, jm, jb, jr⟩ := repeated
  have js : j.segOverride = c.seg := Instr.segOverride_eq (by rw [jm, km]; exact hseg) (by rw [jm]; exact hks)
  exact ⟨jwf, by rw [Instr.byteLength, Instr.prefixLength, Ctx.pending, jl, js, jr, jb, kb]⟩

theorem one_le_bodyLength {f : Format} (hf : f.Builds) {i : Instr} (h : f = .op i ∨ 2 ≤ i.bodyLength) :
    1 ≤ i.bodyLength := by
  obtain rfl | h := h
  · exact hf.length.ge
  · omega

/-- Whatever decodes from pending prefixes on: a well-formed record, longer than the bytes consumed by what was
pending, over the prefixes still to come. -/
theorem decodeFrom_sound {lk : Lockable} {bs rest : List Byte} {j : Instr} {c : Ctx}
    (h : decodeFrom lk c bs = .ok (j, rest)) :
    WellFormed lk j = true ∧ ∃ n, 1 ≤ n ∧ j.byteLength = c.pending + n ∧ Consumed bs rest n := by
  induction bs generalizing c with
  | nil => cases h
  | cons b bs ih =>
    have one_more : ∀ c' : Ctx, c'.pending = c.pending + 1 → decodeFrom lk c' bs = .ok (j, rest) →
        WellFormed lk j = true ∧ ∃ n, 1 ≤ n ∧ j.byteLength = c.pending + n ∧ Consumed (b :: bs) rest n := by
      intro c' hc' h'
      obtain ⟨jwf, n, -, hl, hc⟩ := ih h'
      exact ⟨jwf, 1 + n, by omega, by omega, hc.cons b⟩
    rw [decodeFrom] at h
    cases hf : firstByte b with
    | seg s =>
      simp only [hf] at h
      split at h
      case isTrue => cases h
      case isFalse hs => exact one_more _ (by simp [Ctx.pending, hs]; omega) h
    | lock =>
      simp only [hf] at h
      split at h
      case isTrue => cases h
      case isFalse hl => exact one_more _ (by simp [Ctx.pending, hl]; omega) h
    | rep r =>
      have hrep := firstByte_builds b
      simp only [hf, FirstByte.Builds] at h hrep
      split at h
      case isTrue => cases h
      case isFalse hr => exact one_more _ (by simp [Ctx.pending, hrep, not_not.1 hr]) h
    | body f =>
      have hb := firstByte_builds b
      simp only [hf, FirstByte.Builds] at h hb
      split at h
      next => cases h
      next i rest' hd =>
        split at h
        next => cases h
        next hfin =>
          cases h
          obtain ⟨⟨m, n, hi, hseg, hc⟩, hlen⟩ := decodeBody_eq_ok hb hd
          obtain ⟨jwf, hl⟩ := Ctx.finish_sound hi hseg hfin
          exact ⟨jwf, n, hi.length ▸ one_le_bodyLength hb hlen, hl, hc b⟩

end Sys2Proof

namespace Sys2Proof.Machine

theorem nextIp_toNat (i : Instr) (s : State) : (nextIp i s).toNat = (s.ip.toNat + i.byteLength) % 65536 := by
  simp [nextIp]

/-- Settles O2: the decoded record is well-formed by the row that built it and the prefixes it took, and the length is
counted along the decoder's loop. -/
theorem decodedRecordIsWellFormed : Obligations.DecodedRecordIsWellFormed := by
  refine ⟨fun lk bs rest i h => ?_, fun s i => ⟨rfl, nextIp_toNat i s⟩⟩
  obtain ⟨hwf, n, hn, hlen, hc⟩ := decodeFrom_sound h
  have hi : i.byteLength = n := by simpa [Ctx.pending, Ctx.empty] using hlen
  exact ⟨hwf, by omega, by have := hc.length_eq; omega, hi ▸ hc.eq_drop⟩

end Sys2Proof.Machine
end

section
/-! PROOFS. The rows that yield no record of an instruction: the not-used first bytes (30_encoding R127) and the
reserved second bytes (R128, 40_decoder_prefixes R158, R159). -/

namespace Sys2Proof

/-- Without prefixes, `DecodeOne` is the decoding of the body, errors included. -/
theorem decodeOne_eq_decodeBody (lk : Lockable) {b : Byte} {f : Format} (h : firstByte b = .body f) (bs : List Byte) :
    decodeOne lk (b :: bs) = decodeBody none f bs := by
  rw [decodeOne, decodeFrom]
  simp only [h]
  cases hd : decodeBody Ctx.empty.seg f bs with
  | error e => exact hd.symm
  | ok x => exact hd.symm

/-! ### The not-used bytes (30_encoding R127) -/

open Sys2Proof.Machine (notUsedBytes)

/-- The byte whose marker a row is. -/
def FirstByte.marker? : FirstByte → Option Byte
  | .body (.op (.unknown b)) => some b
  | _ => none

theorem FirstByte.marker?_eq_some {e : FirstByte} {b : Byte} (h : e.marker? = some b) :
    e = .body (.op (.unknown b)) := by
  unfold FirstByte.marker? at h
  split at h
  · cases h; rfl
  · cases h

set_option maxRecDepth 8000 in
/-- The opcode map walked once: the rows of the not-used bytes, and only they, are markers, each of its own byte. -/
theorem firstByte_marker? : ∀ b : Byte,
    (firstByte b).marker? = if b ∈ notUsedBytes then some b else none := by decide

theorem firstByte_notUsed {b : Byte} (h : b ∈ notUsedBytes) : firstByte b = .body (.op (.unknown b)) :=
  FirstByte.marker?_eq_some (by rw [firstByte_marker?, if_pos h])

theorem firstByte_eq_unknown {x b : Byte} (h : firstByte x = .body (.op (.unknown b))) :
    x ∈ notUsedBytes ∧ x = b := by
  have hx := firstByte_marker? x
  rw [h] at hx
  split at hx
  next hm => exact ⟨hm, Option.some_inj.1 hx.symm⟩
  next => cases hx

/-- A record of a single byte has no prefix in front. -/
theorem firstByte_eq_body_of_one {lk : Lockable} {b : Byte} {rest : List Byte} {j : Instr}
    (h : decodeOne lk (b :: rest) = .ok (j, rest)) : ∃ f, firstByte b = .body f := by
  have consumes : ∀ c, decodeFrom lk c rest ≠ .ok (j, rest) := fun c hc => by
    obtain ⟨-, n, hn, -, hr⟩ := decodeFrom_sound hc
    have := hr.length_eq
    omega
  rw [decodeOne, decodeFrom] at h
  cases hf : firstByte b with
  | seg s => simp only [hf] at h; exact absurd h (consumes _)
  | lock => simp only [hf] at h; exact absurd h (consumes _)
  | rep r => simp only [hf] at h; exact absurd h (consumes _)
  | body f => exact ⟨f, rfl⟩

theorem Instr.byteLength_unknown (b : Byte) : (Instr.unknown b).byteLength = 1 := rfl

theorem decodeOne_eq_unknown {lk : Lockable} {bs rest : List Byte} {b : Byte}
    (h : decodeOne lk bs = .ok (.unknown b, rest)) : b ∈ notUsedBytes ∧ bs = b :: rest := by
  obtain ⟨-, n, -, hn, hc⟩ := decodeFrom_sound h
  have h1 : n = 1 := by simpa [Ctx.pending, Ctx.empty, Instr.byteLength_unknown] using hn.symm
  subst h1
  obtain ⟨x, rfl⟩ := consumed_one_iff.1 hc
  obtain ⟨f, hf⟩ := firstByte_eq_body_of_one h
  have hb := firstByte_builds x
  rw [hf] at hb
  rw [decodeOne_eq_decodeBody lk hf] at h
  obtain ⟨-, rfl | h2⟩ := decodeBody_eq_ok hb h
  · obtain ⟨hm, rfl⟩ := firstByte_eq_unknown hf
    exact ⟨hm, rfl⟩
  · exact absurd h2 (by simp [Instr.bodyLength])

/-! ### The reserved second bytes (30_encoding R128) -/

theorem readByte_eq_error {bs : List Byte} {e : Malformed} (h : readByte bs = .error e) : e = .truncated := by
  cases bs with
  | nil => cases h; rfl
  | cons b bs => cases h

theorem readWord_eq_error {bs : List Byte} {e : Malformed} (h : readWord bs = .error e) : e = .truncated := by
  match bs, h with
  | [], h => cases h; rfl
  | [_], h => cases h; rfl

theorem decodeDisp_eq_error {mod : BitVec 2} {rm : BitVec 3} {bs : List Byte} {e : Malformed}
    (h : decodeDisp mod rm bs = .error e) : e = .truncated := by
  unfold decodeDisp at h
  split at h
  · cases h
  · split at h
    · match bs, h with
      | [], h => cases h; rfl
    · match bs, h with
      | [], h => cases h; rfl
      | [_], h => cases h; rfl

theorem decodeEa_eq_error {seg : Option Sreg} {size : Option Width} {m : Byte} {bs : List Byte} {e : Malformed}
    (h : decodeEa seg size m bs = .error e) : e = .truncated := by
  unfold decodeEa at h
  split at h
  next => cases h
  next hd => cases h; exact decodeDisp_eq_error hd

theorem decodeRm_eq_error {seg : Option Sreg} {size : Option Width} {m : Byte} {bs : List Byte} {e : Malformed}
    (h : decodeRm seg size m bs = .error e) : e = .truncated := by
  unfold decodeRm at h
  split at h
  · cases h
  · split at h
    next => cases h
    next hd => cases h; exact decodeEa_eq_error hd

/-- A reserved second byte raises its reason, whatever follows it. -/
theorem decodeBody_reserved {f : Format} {m : Byte} {e : Malformed} (h : f.reservedReason m = some e)
    (seg : Option Sreg) (bs : List Byte) : decodeBody seg f (m :: bs) = .error e := by
  cases f with
  | op0A i =>
    simp only [Format.reservedReason] at h
    split at h
    case isTrue => cases h
    case isFalse hm => cases h; exact if_neg hm
  | modrm sel =>
    rw [show decodeBody seg (.modrm sel) (m :: bs) = decodeExt seg m bs (sel (ModRM.reg m)) from rfl]
    simp only [Format.reservedReason] at h
    cases hx : sel (ModRM.reg m) with
    | reserved => simp only [hx] at h; cases h; rfl
    | memOnly f =>
      simp only [hx] at h
      split at h
      case isTrue hm => cases h; exact if_pos hm
      case isFalse => cases h
    | rm | rmImm8 | rmImm16 => simp [hx] at h
  | op | byte | word | far | accMem => cases h

theorem decodeExt_eq_error {x : Ext} {seg : Option Sreg} {m : Byte} {bs : List Byte} {e : Malformed}
    (h : decodeExt seg m bs x = .error e) :
    e = .truncated ∨ x = .reserved ∧ e = .reservedEncoding ∨
      (∃ f, x = .memOnly f) ∧ ModRM.mod m = 3 ∧ e = .registerWhereMemoryRequired := by
  cases x with
  | reserved => cases h; exact .inr (.inl ⟨rfl, rfl⟩)
  | rm size f =>
    simp only [decodeExt, bind_eq_error_iff] at h
    obtain h | ⟨_, -, h⟩ := h
    · exact .inl (decodeRm_eq_error h)
    · cases h
  | rmImm8 w f =>
    simp only [decodeExt, bind_eq_error_iff] at h
    obtain h | ⟨_, -, h | ⟨_, -, h⟩⟩ := h
    · exact .inl (decodeRm_eq_error h)
    · exact .inl (readByte_eq_error h)
    · cases h
  | rmImm16 f =>
    simp only [decodeExt, bind_eq_error_iff] at h
    obtain h | ⟨_, -, h | ⟨_, -, h⟩⟩ := h
    · exact .inl (decodeRm_eq_error h)
    · exact .inl (readWord_eq_error h)
    · cases h
  | memOnly f =>
    simp only [decodeExt] at h
    split at h
    case isTrue hm => cases h; exact .inr (.inr ⟨⟨f, rfl⟩, hm, rfl⟩)
    case isFalse =>
      simp only [bind_eq_error_iff] at h
      obtain h | ⟨_, -, h⟩ := h
      · exact .inl (decodeEa_eq_error h)
      · cases h

/-- With a second byte there, a body raises that byte's reason or ends too early. -/
theorem decodeBody_eq_error {f : Format} {seg : Option Sreg} {m : Byte} {bs : List Byte} {e : Malformed}
    (h : decodeBody seg f (m :: bs) = .error e) : e = .truncated ∨ f.reservedReason m = some e := by
  cases f with
  | op i => cases h
  | byte g => cases h
  | word g =>
    simp only [decodeBody, bind_eq_error_iff] at h
    obtain h | ⟨_, -, h⟩ := h
    · exact .inl (readWord_eq_error h)
    · cases h
  | far g =>
    simp only [decodeBody, bind_eq_error_iff] at h
    obtain h | ⟨_, -, h | ⟨_, -, h⟩⟩ := h
    · exact .inl (readWord_eq_error h)
    · exact .inl (readWord_eq_error h)
    · cases h
  | op0A i =>
    simp only [decodeBody, bind_eq_error_iff, readByte_cons] at h
    obtain h | ⟨_, hm, h⟩ := h
    · cases h
    · cases hm
      split at h
      case isTrue => cases h
      case isFalse hm => cases h; exact .inr (if_neg hm)
  | accMem w g =>
    simp only [decodeBody, bind_eq_error_iff] at h
    obtain h | ⟨_, -, h⟩ := h
    · exact .inl (readWord_eq_error h)
    · cases h
  | modrm sel =>
    obtain rfl | ⟨hx, rfl⟩ | ⟨⟨f, hx⟩, hm, rfl⟩ := decodeExt_eq_error h
    · exact .inl rfl
    · exact .inr (by simp [Format.reservedReason, hx])
    · exact .inr (by simp [Format.reservedReason, hx, hm])

/-! ### The list of the spec -/

open Sys2Proof.Machine (reservedBy)

/-- The opcodes with reserved second bytes but AAM and AAD, whose second byte is no ModRM byte. -/
def reservingOpcodes : List Byte :=
  [0x8F, 0xC6, 0xC7, 0x82, 0x83, 0xD0, 0xD1, 0xD2, 0xD3, 0xF6, 0xF7, 0xFE, 0xFF, 0x8C, 0x8E, 0x8D, 0xC4, 0xC5]

/-- Whether a second byte of the row can be reserved: the fixed byte of AAM and AAD, an extension that is reserved, or
one that takes memory alone. -/
def Format.reserves : Format → Bool
  | .op0A _ => true
  | .modrm sel => (List.range 8).any fun n =>
      match sel (BitVec.ofNat 3 n) with
      | .reserved => true
      | .memOnly _ => true
      | _ => false
  | _ => false

/-- The same of a first byte; a prefix byte has no second byte of its own. -/
def FirstByte.reserves : FirstByte → Bool
  | .body f => f.reserves
  | _ => false

set_option maxRecDepth 8000 in
theorem firstByte_reserves : ∀ b : Byte,
    (firstByte b).reserves = true → b ∈ 0xD4 :: 0xD5 :: reservingOpcodes := by decide

theorem Format.reservedReason_eq_none {f : Format} (h : f.reserves = false) (m : Byte) : f.reservedReason m = none := by
  cases f with
  | modrm sel =>
    have hm := List.any_eq_false.1 h (ModRM.reg m).toNat (List.mem_range.2 (ModRM.reg m).isLt)
    rw [BitVec.ofNat_toNat, BitVec.setWidth_eq] at hm
    unfold Format.reservedReason
    cases hx : sel (ModRM.reg m) with
    | reserved => simp [hx] at hm
    | memOnly => simp [hx] at hm
    | rm | rmImm8 | rmImm16 => simp only [hx]
  | op0A => cases h
  | op | byte | word | far | accMem => rfl

theorem reservedReason_eq_none {b0 : Byte} (h : b0 ∉ 0xD4 :: 0xD5 :: reservingOpcodes) (b1 : Byte) :
    reservedReason b0 b1 = none := by
  have hr : (firstByte b0).reserves = false := by simpa using mt (firstByte_reserves b0) h
  unfold reservedReason
  cases hf : firstByte b0 with
  | body f => rw [hf] at hr; exact Format.reservedReason_eq_none hr b1
  | seg | lock | rep => rfl

theorem reservedBy_eq_none {b0 : Byte} (h : b0 ∉ 0xD4 :: 0xD5 :: reservingOpcodes) (b1 : Byte) :
    reservedBy b0 b1 = none := by
  simp only [reservingOpcodes, List.mem_cons, not_or] at h
  simp only [reservedBy, h, or_self, false_and, if_false]

theorem reservedReason_aam (b1 : Byte) :
    reservedReason 0xD4 b1 = if b1 = 0x0A then none else some .reservedEncoding := rfl

theorem reservedReason_aad (b1 : Byte) :
    reservedReason 0xD5 b1 = if b1 = 0x0A then none else some .reservedEncoding := rfl

theorem firstByte_modrm : ∀ b ∈ reservingOpcodes, ∃ sel, firstByte b = .body (.modrm sel) := by
  simp only [reservingOpcodes, List.forall_mem_cons, List.not_mem_nil, false_implies, implies_true, and_true]
  and_intros <;> exact ⟨_, rfl⟩

/-- Both read `mod` and `reg` of a ModRM byte alone. -/
theorem reservedReason_modrm {b0 : Byte} (h : b0 ∈ reservingOpcodes) (b1 : Byte) :
    reservedReason b0 b1 = reservedReason b0 (ModRM.byte (ModRM.mod b1) (ModRM.reg b1) 0) := by
  obtain ⟨sel, hf⟩ := firstByte_modrm b0 h
  simp [reservedReason, hf, Format.reservedReason]

theorem reservedBy_modrm {b0 : Byte} (h : b0 ∈ reservingOpcodes) (b1 : Byte) :
    reservedBy b0 b1 = reservedBy b0 (ModRM.byte (ModRM.mod b1) (ModRM.reg b1) 0) := by
  have hne : ∀ b ∈ reservingOpcodes, b ≠ 0xD4 ∧ b ≠ 0xD5 := by decide
  obtain ⟨h4, h5⟩ := hne b0 h
  simp only [reservedBy, ModRM.mod_byte, ModRM.reg_byte, h4, h5, or_self, false_and]

set_option maxRecDepth 8000 in
theorem reservedReason_table : ∀ b ∈ reservingOpcodes, ∀ (mod : BitVec 2) (reg : BitVec 3),
    reservedReason b (ModRM.byte mod reg 0) = reservedBy b (ModRM.byte mod reg 0) := by
  decide

/-- The decoder's reason is the rule's: where no byte is reserved, at AAM and AAD, and at the 18 opcodes with a ModRM
byte, whose `mod` and `reg` fields are walked. -/
theorem reservedReason_eq_reservedBy (b0 b1 : Byte) : reservedReason b0 b1 = reservedBy b0 b1 := by
  by_cases h : b0 ∈ 0xD4 :: 0xD5 :: reservingOpcodes
  · obtain rfl | h := List.mem_cons.1 h
    · rw [reservedReason_aam]; simp [reservedBy]
    obtain rfl | h := List.mem_cons.1 h
    · rw [reservedReason_aad]; simp [reservedBy]
    · rw [reservedReason_modrm h, reservedBy_modrm h]
      exact reservedReason_table b0 h _ _
  · rw [reservedReason_eq_none h, reservedBy_eq_none h]

/-- The format a first byte begins, where it is no prefix. -/
def FirstByte.format? : FirstByte → Option Format
  | .body f => some f
  | _ => none

set_option maxRecDepth 8000 in
/-- The opcode map walked once more: only the seven prefix bytes of 30_encoding R131 begin no body. -/
theorem firstByte_format? : ∀ b : Byte, (firstByte b).format?.isSome ∨
    b ∈ [Sreg.es, .cs, .ss, .ds].map Sreg.overrideByte ++ [0xF0, 0xF2, 0xF3] := by
  decide

theorem firstByte_eq_body {b : Byte} (hs : ∀ s, b ≠ Sreg.overrideByte s) (hl : b ≠ 0xF0) (hn : b ≠ 0xF2)
    (hr : b ≠ 0xF3) : ∃ f, firstByte b = .body f := by
  have h := firstByte_format? b
  simp only [List.map_cons, List.map_nil, List.mem_append, List.mem_cons, hs, hl, hn, hr, List.not_mem_nil, or_self,
    or_false] at h
  cases hf : firstByte b with
  | body f => exact ⟨f, rfl⟩
  | seg | lock | rep => rw [hf] at h; cases h

end Sys2Proof

namespace Sys2Proof.Machine

/-- Settles O7: the map's markers are the rows of the 23 bytes, and a marker's length, 1, leaves nothing for a prefix or
for bytes behind the opcode. -/
theorem notUsedBytesAreTheUnknownMarker : Obligations.NotUsedBytesAreTheUnknownMarker :=
  ⟨fun _ hb => ⟨fun lk _ => decodeOne_body lk (firstByte_notUsed hb) rfl, rfl⟩,
    fun _ _ _ _ h => decodeOne_eq_unknown h⟩

theorem exec_reserved (b0 b1 : Byte) (s : State) : exec (.reserved b0 b1) s =
    .fault (.malformedEncoding ((reservedReason b0 b1).getD .reservedEncoding) s.ip.toNat) := rfl

theorem decodeOne_reserved {lk : Lockable} {b0 b1 : Byte} {e : Malformed} (h : reservedReason b0 b1 = some e)
    (rest : List Byte) : decodeOne lk (b0 :: b1 :: rest) = .error e := by
  unfold reservedReason at h
  cases hf : firstByte b0 with
  | body f =>
    rw [hf] at h
    rw [decodeOne_eq_decodeBody lk hf]
    exact decodeBody_reserved h none rest
  | seg | lock | rep => simp [hf] at h

theorem decodeOne_eq_error {lk : Lockable} {b0 b1 : Byte} {f : Format} (hf : firstByte b0 = .body f) {e : Malformed}
    {rest : List Byte} (h : decodeOne lk (b0 :: b1 :: rest) = .error e) :
    e = .truncated ∨ reservedReason b0 b1 = some e := by
  rw [decodeOne_eq_decodeBody lk hf] at h
  obtain h | h := decodeBody_eq_error h
  · exact .inl h
  · exact .inr (by simpa [reservedReason, hf] using h)

/-- Settles O6: the decoder's reason at a pair of bytes is the rule's, a pair with a reason raises it, and a pair with
none can only be too short. -/
theorem reservedEncodingsAreRejected : Obligations.ReservedEncodingsAreRejected := by
  intro lk b0 b1 rest s
  rw [← reservedReason_eq_reservedBy]
  refine ⟨fun e he => ⟨decodeOne_reserved he rest, by rw [exec_reserved, he]; rfl⟩, fun hnone hs hl hn hr => ?_⟩
  obtain ⟨f, hf⟩ := firstByte_eq_body hs hl hn hr
  constructor
  all_goals
    intro h
    obtain h | h := decodeOne_eq_error hf h
    · cases h
    · rw [hnone] at h; cases h

end Sys2Proof.Machine
end

section
/-! PROOFS. Addresses: what an effective address and its physical address are, category by category
(41_operands_addressing R185 to R188, 20_memory R70). -/

namespace Sys2Proof.Machine

/-- The floor modulus of a physical address (20_memory R70). -/
theorem phys_eq_emod (sg : Word) (off : Int) : (phys sg off : Int) = ((sg.toNat : Int) * 16 + off) % 1048576 :=
  Int.toNat_of_nonneg (Int.emod_nonneg _ (by decide))

/-- At an offset that is a word no number is negative. -/
theorem phys_toNat (sg off : Word) : phys sg off.toNat = (sg.toNat * 16 + off.toNat) % 1048576 := by
  have h := phys_eq_emod sg off.toNat
  omega

theorem mem_addressTable (k : EaKind) : ∃ e ∈ addressTable, e.1 = k := by
  cases k <;> decide

/-- The table's row of a category: its base registers and its default segment. -/
theorem addressTable_row (s : State) : ∀ e ∈ addressTable,
    baseSum s e.1 = (e.2.1.map fun r => (s.reg r).toNat).sum ∧ defaultSeg e.1 = e.2.2 := by
  simp only [addressTable, List.forall_mem_cons]
  simp [baseSum, defaultSeg]

theorem eaOffset_eq (s : State) (ea : Ea) : eaOffset s ea =
    if s.cfg.eaWrap16 then ((baseSum s ea.kind : Int) + ea.disp.value) % 65536
    else (baseSum s ea.kind : Int) + ea.disp.value := rfl

/-- The override's segment, or else the category's (41_operands_addressing R187). -/
theorem eaSeg_eq {ea : Ea} {sr : Sreg} (h : ea.seg = some sr ∨ ea.seg = none ∧ sr = defaultSeg ea.kind) :
    eaSeg ea = sr := by
  obtain h | ⟨h, rfl⟩ := h <;> simp [eaSeg, h]

/-- Settles O56: the table's row gives the base sum and the default segment, and the address is their `phys`. -/
theorem addressFormation : Obligations.AddressFormation := by
  refine ⟨phys_toNat, mem_addressTable, rfl, ⟨rfl, fun _ => rfl, fun _ => rfl⟩, fun _ _ => ⟨rfl, rfl⟩, ?_⟩
  intro s ea raw e he hk hraw
  obtain ⟨hbase, hdef⟩ := addressTable_row s e he
  rw [← hbase, ← hk] at hraw
  rw [← hk] at hdef
  refine ⟨fun hw => ?wrap, fun hw => ?noWrap, fun sr hsr => ?address, phys_lt _ _⟩
  case wrap => rw [eaOffset_eq, if_pos hw, hraw]
  case noWrap => rw [eaOffset_eq, hw, hraw]; rfl
  case address => rw [eaPhys, eaSeg_eq (hdef ▸ hsr), phys_eq_emod]

end Sys2Proof.Machine
end

section
/-! PROOFS. The bytes of an operand and the numbers the statements use: the ModRM byte and the catalogs (30_encoding
R92, R95 to R99, R131), the values of a width (00_scope R10, R11) and the halves of a register (10_state R21). -/

namespace Sys2Proof

/-! ### The ModRM byte in numbers (30_encoding R92) -/

theorem ModRM.byte_eq_ofNat : ∀ (mod : BitVec 2) (reg rm : BitVec 3),
    ModRM.byte mod reg rm = BitVec.ofNat 8 (64 * mod.toNat + 8 * reg.toNat + rm.toNat) := by decide

theorem encodeRm_regOperand (reg : BitVec 3) (w : Width) (n : BitVec 3) :
    encodeRm reg (regOperand w n) = [ModRM.byte 3 reg n] := by
  cases w <;> simp [regOperand, encodeRm]

/-! ### An override in front of an r/m operand (40_decoder_prefixes R147) -/

/-- A row with one r/m operand, read with the override the operand has. -/
theorem decodeBody_rm_override {sel : BitVec 3 → Ext} {ext : BitVec 3} {w : Width} {f : Operand → Instr}
    {op : Operand} (rest : List Byte) (h : sel ext = .rm (some w) f) (ho : op.isAt w = true) :
    decodeBody (op.ea?.bind Ea.seg) (.modrm sel) (encodeRm ext op ++ rest) = .ok (f op, rest) := by
  obtain ⟨m, tail, e, hr, hd⟩ := decodeRm_encodeRm w ext op rest ho
  simp [decodeBody, e, hr, h, decodeExt, hd, bind, Except.bind, pure, Except.pure]

theorem firstByte_overrideByte (s : Sreg) : firstByte s.overrideByte = .seg s := by cases s <;> rfl

/-- An override byte in front of a body with a memory operand. -/
theorem decodeOne_override (lk : Lockable) (s : Sreg) {b : Byte} {bs rest : List Byte} {f : Format} {i : Instr}
    (hf : firstByte b = .body f) (hd : decodeBody (some s) f bs = .ok (i, rest)) (hm : i.mem?.isSome = true) :
    decodeOne lk (s.overrideByte :: b :: bs) = .ok (i, rest) := by
  have hfin : (Ctx.mk (some s) false .none).finish lk i = .ok i := by
    simp [Ctx.finish_eq, Ctx.takeLock, Ctx.drain, bind, Except.bind, Option.isSome_iff_ne_none.1 hm]
  simp [decodeOne, decodeFrom, firstByte_overrideByte, Ctx.empty, hf, hd, hfin]

end Sys2Proof

namespace Sys2Proof.Machine

/-! ### The catalogs (30_encoding R96 to R98) -/

theorem catalog_eq_regOperand (w : Width) : ∀ n : BitVec 3, catalog w n = regOperand w n := by
  cases w <;> decide

theorem encodeRm_catalog (w : Width) (reg n : BitVec 3) :
    encodeRm reg (catalog w n) = [BitVec.ofNat 8 (0xC0 + 8 * reg.toNat + n.toNat)] := by
  rw [catalog_eq_regOperand, encodeRm_regOperand, ModRM.byte_eq_ofNat]
  rfl

theorem eaCatalog_code : ∀ e ∈ eaCatalog, e.2.code.toNat = e.1 ∧ e.2 ≠ .direct := by decide

theorem encodeEa_catalog (reg : BitVec 3) (seg : Option Sreg) (size : Option Width) (b : Byte) (v : Word) :
    ∀ e ∈ eaCatalog,
      encodeEa reg ⟨e.2, .none, seg, size⟩ = [BitVec.ofNat 8 (8 * reg.toNat + e.1)] ∧
      encodeEa reg ⟨e.2, .d8 b, seg, size⟩ = [BitVec.ofNat 8 (0x40 + 8 * reg.toNat + e.1), b] ∧
      encodeEa reg ⟨e.2, .d16 v, seg, size⟩ =
        [BitVec.ofNat 8 (0x80 + 8 * reg.toNat + e.1), loByte v, hiByte v] := by
  intro e he
  obtain ⟨hc, hd⟩ := eaCatalog_code e he
  simp [encodeEa, encodeWord, hd, ModRM.byte_eq_ofNat, hc]

theorem encodeEa_direct (reg : BitVec 3) (seg : Option Sreg) (size : Option Width) (v : Word) :
    encodeEa reg ⟨.direct, .d16 v, seg, size⟩ = [BitVec.ofNat 8 (8 * reg.toNat + 6), loByte v, hiByte v] := by
  simp [encodeEa, encodeWord, EaKind.code, ModRM.byte_eq_ofNat]

/-- A load behind an override byte, at either width. -/
theorem reads_override_mov (w : Width) (reg : BitVec 3) {ea : Ea} (hwf : ea.wf = true) (hw : ea.size = some w)
    (s : Sreg) :
    Reads (s.overrideByte :: (0x8A + w.bit) :: encodeEa reg ea)
      (.movRmReg (catalog w reg) (.mem { ea with seg := some s })) := by
  intro lk rest
  have hf : firstByte (0x8A + w.bit) = rowRegRm w .movRmReg := by cases w <;> rfl
  have hat : (Operand.mem { ea with seg := some s }).isAt w = true := by
    have hs : ({ ea with seg := some s } : Ea).wf = true := hwf
    simpa [Operand.isAt, hw] using hs
  rw [catalog_eq_regOperand]
  exact decodeOne_override lk s hf (decodeBody_rm_override rest rfl hat) (by simp [Instr.mem?, Operand.ea?])

theorem overrideByte_table : ∀ e ∈ [((0x26 : Byte), Sreg.es), (0x2E, .cs), (0x36, .ss), (0x3E, .ds)],
    e.2.overrideByte = e.1 := by decide

/-! ### Values (30_encoding R99, 00_scope R10, R11) -/

theorem toNat_eq_hiByte_loByte (v : Word) : v.toNat = (hiByte v).toNat * 256 + (loByte v).toNat := by
  have := v.isLt
  simp only [hiByte, loByte, BitVec.extractLsb'_toNat, Nat.shiftRight_eq_div_pow]
  omega

theorem conv_byte_toNat (b : Byte) : conv .byte b.toNat = b.toInt := by
  rw [conv, BitVec.toInt_eq_toNat_cond, modulus]
  split <;> split <;> omega

theorem conv_word_toNat (v : Word) : conv .word v.toNat = v.toInt := by
  rw [conv, BitVec.toInt_eq_toNat_cond, modulus]
  split <;> split <;> omega

/-! ### The halves of a register (10_state R21) -/

/-- A byte register `r` that is the eight bits of `q` from bit `k` on, `r'` being the other eight: read, and written. -/
theorem byteRegister_isHalf (s : State) (v : Byte) {r r' : Reg8} {q : Reg16} {k : Nat} (hp : r.parent = q)
    (hr : ∀ t : State, t.reg8 r = (t.reg q).extractLsb' k 8)
    (hr' : ∀ t : State, t.reg8 r' = (t.reg q).extractLsb' (8 - k) 8) (hne : r' ≠ r) :
    r.parent = q ∧ s.reg8 r = (s.reg q).extractLsb' k 8 ∧
      ((s.setReg8 r v).reg q).extractLsb' k 8 = v ∧
      ((s.setReg8 r v).reg q).extractLsb' (8 - k) 8 = (s.reg q).extractLsb' (8 - k) 8 ∧
      (∀ q', q' ≠ q → (s.setReg8 r v).reg q' = s.reg q') ∧
      s.setReg8 r v = { s with regs := (s.setReg8 r v).regs } := by
  refine ⟨hp, hr s, ?_, ?_, fun q' h => State.setReg8_reg_other s r v (hp ▸ h), rfl⟩
  · rw [← hr, State.setReg8_reg8, if_pos rfl]
  · rw [← hr', ← hr', State.setReg8_reg8, if_neg hne]

/-- Settles O60: each clause by the lemma of its part. -/
theorem operandBytesAreTheCatalogs : Obligations.OperandBytesAreTheCatalogs := by
  refine ⟨encodeRm_catalog, fun reg seg size b v => ⟨fun e he => ?ea, encodeEa_direct reg seg size v⟩,
    fun w reg ea hwf _ hw e he => ?override, fun b v => ?values, ?widths, fun op2 ea w r q => ?operands,
    fun s v => ?registers, fun s v => ?halves⟩
  case ea =>
    obtain ⟨h0, h8, h16⟩ := encodeEa_catalog reg seg size b v e he
    exact ⟨fun _ => h0, h8, h16⟩
  case override =>
    have hb := overrideByte_table e he
    exact ⟨hb, hb ▸ reads_override_mov w reg hwf hw e.2⟩
  case values =>
    exact ⟨rfl, rfl, rfl, rfl, toNat_eq_hiByte_loByte v, conv_byte_toNat b, conv_word_toNat v,
      fun n => ⟨reduce_eq_emod .byte n, reduce_eq_emod .word n⟩⟩
  case widths => exact ⟨rfl, rfl, rfl, rfl, rfl, rfl, rfl, rfl⟩
  case operands => exact ⟨rfl, rfl, fun h => by simp [Operand.width, h], rfl, rfl, rfl⟩
  case registers =>
    exact ⟨fun r q => s.setReg_reg r q v, fun r q => s.setSeg_seg r q v, fun _ => rfl, fun _ => rfl, rfl⟩
  case halves =>
    simp only [List.forall_mem_cons, List.not_mem_nil, false_implies, implies_true, and_true]
    exact ⟨byteRegister_isHalf s v (r' := .ah) rfl (fun _ => rfl) (fun _ => rfl) (by decide),
      byteRegister_isHalf s v (r' := .ch) rfl (fun _ => rfl) (fun _ => rfl) (by decide),
      byteRegister_isHalf s v (r' := .dh) rfl (fun _ => rfl) (fun _ => rfl) (by decide),
      byteRegister_isHalf s v (r' := .bh) rfl (fun _ => rfl) (fun _ => rfl) (by decide),
      byteRegister_isHalf s v (r' := .al) rfl (fun _ => rfl) (fun _ => rfl) (by decide),
      byteRegister_isHalf s v (r' := .cl) rfl (fun _ => rfl) (fun _ => rfl) (by decide),
      byteRegister_isHalf s v (r' := .dl) rfl (fun _ => rfl) (fun _ => rfl) (by decide),
      byteRegister_isHalf s v (r' := .bl) rfl (fun _ => rfl) (fun _ => rfl) (by decide)⟩

end Sys2Proof.Machine
end

section
/-! PROOFS. A second prefix byte of a class already pending (40_decoder_prefixes R142 to R144, R146). -/

namespace Sys2Proof

theorem firstByte_lockByte : firstByte 0xF0 = .lock := rfl
theorem firstByte_repneByte : firstByte 0xF2 = .rep .repne := rfl
theorem firstByte_repByte : firstByte 0xF3 = .rep .rep := rfl

theorem decodeFrom_seg_pending {lk : Lockable} {c : Ctx} {b : Byte} {s : Sreg} (hb : firstByte b = .seg s)
    (hc : c.seg ≠ none) (rest : List Byte) : decodeFrom lk c (b :: rest) = .error .prefixAlreadySet := by
  simp [decodeFrom, hb, Option.isSome_iff_ne_none.2 hc]

theorem decodeFrom_lock_pending {lk : Lockable} {c : Ctx} {b : Byte} (hb : firstByte b = .lock)
    (hc : c.lock = true) (rest : List Byte) : decodeFrom lk c (b :: rest) = .error .prefixAlreadySet := by
  simp [decodeFrom, hb, hc]

theorem decodeFrom_rep_pending {lk : Lockable} {c : Ctx} {b : Byte} {r : Rep} (hb : firstByte b = .rep r)
    (hc : c.rep ≠ .none) (rest : List Byte) : decodeFrom lk c (b :: rest) = .error .prefixAlreadySet := by
  simp [decodeFrom, hb, hc]

end Sys2Proof

namespace Sys2Proof.Machine

/-- Settles O8: the loop checks what is pending as soon as it has the class of the byte. -/
theorem secondPrefixOfAClassIsRejected : Obligations.SecondPrefixOfAClassIsRejected := fun _ _ rest =>
  ⟨fun s hc => decodeFrom_seg_pending (firstByte_overrideByte s) hc rest,
    fun hc => decodeFrom_lock_pending firstByte_lockByte hc rest,
    fun hc => ⟨decodeFrom_rep_pending firstByte_repneByte hc rest, decodeFrom_rep_pending firstByte_repByte hc rest⟩⟩

end Sys2Proof.Machine
end

section
/-! PROOFS. A lock has no effect on a step but the length of its byte (40_decoder_prefixes R152): the diffs of the two
records are the same but for the value of `ip`, and that entry can be changed after the commit as well as before. -/

namespace Sys2Proof.Machine

/-! ### Writes that leave `ip` alone -/

/-- None of the writes goes to `ip`. -/
def KeepIp (ws : List Write) : Prop := ∀ e ∈ ws, e.key ≠ some .ip

theorem KeepIp.append {ws vs : List Write} (h : KeepIp ws) (g : KeepIp vs) : KeepIp (ws ++ vs) := fun e he =>
  (List.mem_append.1 he).elim (h e) (g e)

/-- Setting `ip` commutes with every write that does not. -/
theorem Write.apply_setIp {e : Write} (h : e.key ≠ some .ip) (s : State) (v : Word) :
    e.apply (s.setIp v) = (e.apply s).setIp v := by
  cases e with
  | ip => exact absurd rfl h
  | mem a b =>
    simp only [Write.apply_mem, State.setByte]
    split <;> rfl
  | reg | reg8 | seg | flag | draw => rfl

theorem commit_setIp {ws : List Write} (h : KeepIp ws) (s : State) (v : Word) :
    commit ws (s.setIp v) = (commit ws s).setIp v := by
  induction ws generalizing s with
  | nil => rfl
  | cons e ws ih =>
    rw [commit_cons, commit_cons, Write.apply_setIp (h e (.head ws)), ih fun e he => h e (.tail _ he)]

theorem memWrite_keepsIp {s : State} {w : Width} {a v : Nat} {ws : List Write} (h : memWrite s w a v = .ok ws) :
    KeepIp ws := by
  cases w with
  | byte =>
    obtain ⟨_, _, h⟩ := bind_eq_ok_iff.1 h
    cases h
    simp [KeepIp, Write.key]
  | word =>
    obtain ⟨_, _, h⟩ := bind_eq_ok_iff.1 h
    obtain ⟨_, _, h⟩ := bind_eq_ok_iff.1 h
    cases h
    simp [KeepIp, Write.key]

theorem writeOp_keepsIp {s : State} {w : Width} {op : Operand} {v : Nat} {ws : List Write}
    (h : writeOp s w op v = .ok ws) : KeepIp ws := by
  cases op with
  | mem ea => exact memWrite_keepsIp h
  | reg8 r | reg16 r =>
    cases h
    simp [KeepIp, Write.key]

theorem AluResult.flagsAll_keepIp (x : AluResult) : KeepIp x.flagsAll := by
  simp [KeepIp, AluResult.flagsAll, Write.key]

theorem AluResult.flagsNoCarry_keepIp (x : AluResult) : KeepIp x.flagsNoCarry := by
  simp [KeepIp, AluResult.flagsNoCarry, Write.key]

theorem flagWrites_keepIp (s : State) (ds : List (Flag × Bool)) (us : List Flag) : KeepIp (flagWrites s ds us) := by
  unfold flagWrites
  split
  case h_1 =>
    intro e he
    obtain ⟨d, -, rfl⟩ := List.mem_map.1 he
    nofun
  case h_2 =>
    refine KeepIp.append (fun e he => ?flags) (by split <;> simp [KeepIp, Write.key])
    case flags =>
      obtain ⟨f, -, hf⟩ := List.mem_filterMap.1 he
      split at hf
      · cases hf; nofun
      · split at hf
        · cases hf; nofun
        · cases hf

/-! ### Diffs that are the same but for `ip` -/

/-- The two diffs raise the same fault, or they set `ip` to `v` and to `v'` and then make the same writes, none of
them to `ip`. -/
inductive SameButIp (v v' : Word) : Except Fault (List Write) → Except Fault (List Write) → Prop where
  | raise (f : Fault) : SameButIp v v' (.error f) (.error f)
  | write {ws : List Write} (h : KeepIp ws) : SameButIp v v' (.ok (.ip v :: ws)) (.ok (.ip v' :: ws))

/-- A first part that does not read the record, such as the read of an operand. -/
theorem SameButIp.bind {α : Type} {v v' : Word} {x : Except Fault α} {f g : α → Except Fault (List Write)}
    (h : ∀ a, x = .ok a → SameButIp v v' (f a) (g a)) : SameButIp v v' (x >>= f) (x >>= g) := by
  cases x with
  | error e => exact .raise e
  | ok a => exact h a rfl

section
variable (i j : Instr) (s : State) (w : Width) (op1 op2 : Operand)

theorem arithDiff_sameButIp (src : Except Fault Nat) (f : Nat → Nat → AluResult) :
    SameButIp (nextIp i s) (nextIp j s) (arithDiff i s w op1 src f) (arithDiff j s w op1 src f) :=
  .bind fun _ _ => .bind fun _ _ => .bind fun _ hws =>
    .write ((writeOp_keepsIp hws).append (AluResult.flagsAll_keepIp _))

theorem logicDiff_sameButIp (src : Except Fault Nat) (f : Nat → Nat → Nat) :
    SameButIp (nextIp i s) (nextIp j s) (logicDiff i s w op1 src f) (logicDiff j s w op1 src f) :=
  .bind fun _ _ => .bind fun _ _ => .bind fun _ hws => .write ((writeOp_keepsIp hws).append (flagWrites_keepIp _ _ _))

theorem stepByOneDiff_sameButIp (f : Nat → AluResult) :
    SameButIp (nextIp i s) (nextIp j s) (stepByOneDiff i s w op1 f) (stepByOneDiff j s w op1 f) :=
  .bind fun _ _ => .bind fun _ hws => .write ((writeOp_keepsIp hws).append (AluResult.flagsNoCarry_keepIp _))

theorem exchangeDiff_sameButIp :
    SameButIp (nextIp i s) (nextIp j s) (exchangeDiff i s w op1 op2) (exchangeDiff j s w op1 op2) :=
  .bind fun _ _ => .bind fun _ _ => .bind fun _ hws1 => .bind fun _ hws2 =>
    .write ((writeOp_keepsIp hws1).append (writeOp_keepsIp hws2))

theorem diffNeg_sameButIp (l l' : Bool) :
    SameButIp (nextIp (.neg l op1) s) (nextIp (.neg l' op1) s) (diffNeg l op1 s) (diffNeg l' op1 s) :=
  .bind fun _ _ => .bind fun _ hws => .write ((writeOp_keepsIp hws).append (AluResult.flagsAll_keepIp _))

theorem diffNot_sameButIp (l l' : Bool) :
    SameButIp (nextIp (.not l op1) s) (nextIp (.not l' op1) s) (diffNot l op1 s) (diffNot l' op1 s) :=
  .bind fun _ _ => .bind fun _ hws => .write (writeOp_keepsIp hws)

end

/-- Diffs that are the same but for `ip`, where it is one further, give next states of which this is true too. -/
theorem complete_sameButIp {k : Kind} {s : State} {v : Word} {d d' : Except Fault (List Write)}
    (h : SameButIp v (v + 1) d d') :
    (∀ t, complete k s d = .next t →
      complete k s d' = .next (if k ∈ s.cfg.simulated then { t with ip := t.ip + 1 } else t)) ∧
    ∀ f, complete k s d = .fault f → complete k s d' = .fault f := by
  by_cases hk : k ∈ s.cfg.simulated
  case neg => simp [complete, hk]
  case pos =>
    cases h with
    | raise f => simp [complete_error hk]
    | @write ws h =>
      have hc : ∀ u, commit (.ip u :: ws) s = (commit ws s).setIp u := commit_setIp h s
      simp [complete_ok hk, hc, hk, State.setIp]

/-! ### The records that take a lock -/

/-- A record of any kind is the diff of its rule, completed (43_data_transfer R240 (a)). -/
theorem exec_eq_complete {i : Instr} {k : Kind} (h : recordKind i = some k) (s : State) :
    exec i s = complete k s (ruleDiff i s) := by
  cases i <;> cases h <;> rfl

/-- `ConsumeLock` changes nothing but the lock, whether or not `LOCKABLE` holds of the record. -/
theorem consumeLock_fields {lk : Lockable} {i j : Instr} {b : Bool} (h : i.consumeLock lk = some (b, j)) :
    j.isLocked = true ∧ j.mem? = i.mem? ∧ j.bodyLength = i.bodyLength ∧ j.repField = i.repField ∧
      recordKind j = recordKind i := by
  cases i <;> simp only [Instr.consumeLock, Option.some.injEq, Prod.mk.injEq, reduceCtorEq] at h
  all_goals
    obtain ⟨-, rfl⟩ := h
    exact ⟨rfl, rfl, rfl, rfl, rfl⟩

theorem nextIp_of_consumeLock {lk : Lockable} {i j : Instr} {b : Bool} (h : i.consumeLock lk = some (b, j))
    (hi : i.isLocked = false) (s : State) : nextIp j s = nextIp i s + 1 := by
  obtain ⟨hj, hm, hb, hr, -⟩ := consumeLock_fields h
  have hs : j.segOverride = i.segOverride := by rw [Instr.segOverride, hm, Instr.segOverride]
  have hlen : j.byteLength = i.byteLength + 1 := by
    simp only [Instr.byteLength, Instr.prefixLength, hi, hj, hs, hb, hr, if_true, Bool.false_eq_true, if_false]
    omega
  simp [nextIp, hlen, BitVec.ofNat_add, BitVec.add_assoc]

/-- Each of the 19 kinds by the template of its diff. -/
theorem ruleDiff_of_consumeLock {lk : Lockable} {i j : Instr} {b : Bool} (h : i.consumeLock lk = some (b, j))
    (s : State) : SameButIp (nextIp i s) (nextIp j s) (ruleDiff i s) (ruleDiff j s) := by
  cases i <;> simp only [Instr.consumeLock, Option.some.injEq, Prod.mk.injEq, reduceCtorEq] at h
  all_goals obtain ⟨-, rfl⟩ := h
  case xchgRmReg => exact exchangeDiff_sameButIp ..
  case addRmReg | addRmImm | adcRmReg | adcRmImm | subRmReg | subRmImm | sbbRmReg | sbbRmImm =>
    exact arithDiff_sameButIp ..
  case andRmReg | andRmImm | orRmReg | orRmImm | xorRmReg | xorRmImm => exact logicDiff_sameButIp ..
  case incRm | decRm => exact stepByOneDiff_sameButIp ..
  case neg => exact diffNeg_sameButIp ..
  case not => exact diffNot_sameButIp ..

/-- Settles O18: the kind is the same, and the diff is the same but for the `ip` of the longer record. -/
theorem lockHasNoEffectOnTheStep : Obligations.LockHasNoEffectOnTheStep := by
  intro lk s i j b k hc hi hk
  obtain ⟨-, -, -, -, hkind⟩ := consumeLock_fields hc
  have hd := ruleDiff_of_consumeLock hc s
  rw [nextIp_of_consumeLock hc hi] at hd
  rw [exec_eq_complete hk, exec_eq_complete (hkind.trans hk)]
  exact complete_sameButIp hd

end Sys2Proof.Machine
end

section
/-! PROOFS. LAHF and SAHF (43_data_transfer R266, R267), and what writing flags from an image does (10_state R26). -/

namespace Sys2Proof.Machine

/-! ### Flags written from an image -/

/-- Each flag of the list holds its bit of the image; the others are as before. -/
theorem flagsFrom_flag (fs : List Flag) (v : Word) (t : State) (f : Flag) :
    (commit (flagsFrom fs v) t).flag f = if f ∈ fs then v.getLsbD f.bit else t.flag f := by
  induction fs generalizing t with
  | nil => rfl
  | cons g fs ih =>
    have h : (commit (flagsFrom (g :: fs) v) t).flag f =
        if f ∈ fs then v.getLsbD f.bit else (t.setFlag g (v.getLsbD g.bit)).flag f := ih _
    rw [h, State.setFlag_flag]
    by_cases hg : f = g
    · simp [hg]
    · simp [hg]

theorem flagsFrom_ip (fs : List Flag) (v : Word) (t : State) : (commit (flagsFrom fs v) t).ip = t.ip := by
  induction fs generalizing t with
  | nil => rfl
  | cons g fs ih => exact ih (t.setFlag g _)

theorem frame_flagsFrom (fs : List Flag) (v : Word) (t : State) :
    Frame t (commit (flagsFrom fs v) t) (touchFlags fs) := by
  simpa [flagsFrom, Function.comp_def] using frame_flagEntries (fs.map fun f => (f, v.getLsbD f.bit)) t

/-! ### LAHF and SAHF -/

theorem reads_lahf : Reads [0x9F] .lahf := fun lk rest => decodeOne_eq_decodeBody lk (f := .op .lahf) rfl rest

theorem reads_sahf : Reads [0x9E] .sahf := fun lk rest => decodeOne_eq_decodeBody lk (f := .op .sahf) rfl rest

theorem exec_lahf {s : State} (h : .lahf ∈ s.cfg.simulated) :
    exec .lahf s = .next ((s.setIp (nextIp .lahf s)).setReg8 .ah (loByte (flagsWord s))) :=
  (exec_eq_complete rfl s).trans (complete_ok h)

theorem exec_sahf {s : State} (h : .sahf ∈ s.cfg.simulated) :
    exec .sahf s = .next (commit (flagsFrom Flag.low ((s.reg8 .ah).setWidth 16)) (s.setIp (nextIp .sahf s))) :=
  (exec_eq_complete rfl s).trans (complete_ok h)

/-- The low flags written from `ah` widened to a word are bits of `ah` itself (43_data_transfer R267). -/
theorem sahf_flag (s t : State) {f : Flag} (hf : f ∈ Flag.low) :
    (commit (flagsFrom Flag.low ((s.reg8 .ah).setWidth 16)) t).flag f = (s.reg8 .ah).getLsbD f.bit := by
  have hb : f.bit < 16 := by cases f <;> decide
  rw [flagsFrom_flag, if_pos hf, BitVec.getLsbD_setWidth, decide_eq_true hb, Bool.true_and]

/-- Settles O26: LAHF is a write of `ip` and one of `ah`, SAHF a write of `ip` and the five low flags from `ah`. -/
theorem lahfAndSahfResult : Obligations.LahfAndSahfResult := by
  refine fun s => ⟨reads_lahf, reads_sahf, fun h => ⟨_, exec_lahf h, rfl, ?ah, ?lahfFrame⟩,
    fun h => ⟨_, exec_sahf h, flagsFrom_ip .., ?flags, ?sahfFrame⟩⟩
  case ah => rw [State.setReg8_reg8, if_pos rfl]
  case lahfFrame => exact (frame_setIp s _).trans (frame_setReg8 _ .ah _)
  case flags =>
    exact ⟨sahf_flag s _ (by decide), sahf_flag s _ (by decide), sahf_flag s _ (by decide),
      sahf_flag s _ (by decide), sahf_flag s _ (by decide)⟩
  case sahfFrame => exact (frame_setIp s _).trans (frame_flagsFrom Flag.low _ _)

end Sys2Proof.Machine
end

section
/-! PROOFS. The adjustments and the extensions of the accumulator (44_arithmetic R289, R290, R303, R304, R307, R310 to
R312), and what a step does that writes defined and undefined flags (42_alu_flags R208). -/

namespace Sys2Proof.Machine

/-! ### The flag entries of a step (42_alu_flags R208) -/

/-- Where no flag is listed twice, looking one up finds what the list says of it. -/
theorem lookup_eq_some_of_mem {ds : List (Flag × Bool)} {f : Flag} {b : Bool} (hd : (ds.map Prod.fst).Nodup)
    (h : (f, b) ∈ ds) : ds.lookup f = some b := by
  obtain ⟨l₁, l₂, rfl⟩ := List.append_of_mem h
  refine List.lookup_eq_some_iff.2 ⟨l₁, l₂, rfl, fun p hp => bne_iff_ne.2 ?_⟩
  rw [List.map_append, List.nodup_append] at hd
  exact (hd.2.2 p.1 (List.mem_map_of_mem hp) f (by simp)).symm

/-- Everything `flagWrites` can write: flags of the two lists, those of the second only where undefined flags are drawn,
and the counter of the draws. -/
theorem mem_flagWrites {s : State} {ds : List (Flag × Bool)} {us : List Flag} {e : Write}
    (h : e ∈ flagWrites s ds us) :
    e = .draw ∨ ∃ f b, e = .flag f b ∧ f ∈ ds.map Prod.fst ++ undefTouched s us := by
  unfold flagWrites at h
  split at h
  case h_1 =>
    obtain ⟨d, hd, rfl⟩ := List.mem_map.1 h
    exact .inr ⟨d.1, d.2, rfl, List.mem_append_left _ (List.mem_map_of_mem hd)⟩
  case h_2 hu =>
    obtain h | h := List.mem_append.1 h
    · obtain ⟨f, -, hf⟩ := List.mem_filterMap.1 h
      split at hf
      case h_1 b hb =>
        cases hf
        obtain ⟨l₁, l₂, rfl, -⟩ := List.lookup_eq_some_iff.1 hb
        exact .inr ⟨f, b, rfl, by simp⟩
      case h_2 =>
        split at hf
        case isTrue hm => cases hf; exact .inr ⟨f, _, rfl, by simp [undefTouched, hu, hm]⟩
        case isFalse => cases hf
    · split at h
      · cases h
      · exact .inl (List.mem_singleton.1 h)

/-- The one entry of a defined flag. -/
theorem flag_mem_flagWrites {s : State} {ds : List (Flag × Bool)} {us : List Flag} {f : Flag} {b : Bool}
    (hd : (ds.map Prod.fst).Nodup) (h : (f, b) ∈ ds) (c : Bool) : .flag f c ∈ flagWrites s ds us ↔ c = b := by
  have hl := lookup_eq_some_of_mem hd h
  unfold flagWrites
  split
  case h_1 =>
    have hc : (f, c) ∈ ds ↔ c = b :=
      ⟨fun g => Option.some_inj.1 ((lookup_eq_some_of_mem hd g).symm.trans hl), fun g => g ▸ h⟩
    simpa using hc
  case h_2 =>
    have htail : Write.flag f c ∉ (if us = [] then [] else [Write.draw]) := by split <;> simp
    have hall : f ∈ Flag.all := by cases f <;> decide
    rw [List.mem_append, or_iff_left htail, List.mem_filterMap]
    constructor
    · rintro ⟨g, -, hg⟩
      split at hg
      case h_1 hb => cases hg; exact Option.some_inj.1 (hb.symm.trans hl)
      case h_2 hn =>
        split at hg
        · cases hg; rw [hn] at hl; cases hl
        · cases hg
    · rintro rfl
      exact ⟨f, hall, by rw [hl]⟩

/-- A flag holds `b` after writes that give it no other value, and give it `b` or find it so. -/
theorem commit_flag_eq {ws : List Write} {f : Flag} {b : Bool} (hu : ∀ c, .flag f c ∈ ws → c = b) {t : State}
    (h : .flag f b ∈ ws ∨ t.flag f = b) : (commit ws t).flag f = b := by
  induction ws generalizing t with
  | nil => simpa using h
  | cons e ws ih =>
    rw [commit_cons]
    refine ih (fun c hc => hu c (.tail _ hc)) ?_
    by_cases he : e = .flag f b
    case pos => exact .inr (by simp [he])
    case neg =>
      refine h.imp (fun hm => (List.mem_cons.1 hm).resolve_left (Ne.symm he)) fun ht => ?_
      cases e with
      | flag g c =>
        have hg : f ≠ g := fun hg => he (by rw [hg, hu c (by simp [hg])])
        simpa [hg] using ht
      | mem a v => simpa using ht
      | ip | reg | reg8 | seg | draw => exact ht

theorem flagWrites_flag {s : State} {ds : List (Flag × Bool)} {us : List Flag} {f : Flag} {b : Bool}
    (hd : (ds.map Prod.fst).Nodup) (h : (f, b) ∈ ds) (t : State) : (commit (flagWrites s ds us) t).flag f = b :=
  commit_flag_eq (fun c => (flag_mem_flagWrites hd h c).1) (.inl ((flag_mem_flagWrites hd h b).2 rfl))

/-- Writes of flags in `fs` and of the counter of draws change only those flags. -/
theorem frame_of_flagsOrDraw {ws : List Write} {fs : List Flag}
    (h : ∀ e ∈ ws, e = .draw ∨ ∃ f b, e = .flag f b ∧ f ∈ fs) (t : State) :
    Frame t (commit ws t) (touchFlags fs) := by
  induction ws generalizing t with
  | nil => exact Frame.refl t _
  | cons e ws ih =>
    have he : Frame t (e.apply t) (touchFlags fs) := by
      obtain rfl | ⟨f, b, rfl, hf⟩ := h e (.head ws)
      · exact Frame.refl t _
      · refine ⟨fun _ _ _ => rfl, fun _ _ _ => rfl, fun _ _ => rfl, fun g hg => ?_, fun _ _ => rfl, rfl, rfl, rfl⟩
        have hne : g ≠ f := fun hgf => hg (hgf ▸ hf)
        simp [hne]
    have hws := he.trans (ih (fun e he => h e (.tail _ he)) (e.apply t))
    simpa [Frame, Touched.add, touchFlags, touchNothing] using hws

theorem frame_flagWrites (s : State) (ds : List (Flag × Bool)) (us : List Flag) (t : State) :
    Frame t (commit (flagWrites s ds us) t) (touchFlags (ds.map Prod.fst ++ undefTouched s us)) :=
  frame_of_flagsOrDraw (fun _ he => mem_flagWrites he) t

theorem flagWrites_reg (s : State) (ds : List (Flag × Bool)) (us : List Flag) (t : State) (r : Reg16) :
    (commit (flagWrites s ds us) t).reg r = t.reg r := by
  obtain ⟨hreg, -⟩ := frame_flagWrites s ds us t
  exact hreg r List.not_mem_nil fun _ h => absurd h List.not_mem_nil

/-- The step of a record whose diff writes `ip`, then `ws`, then flags: registers are as after `ws`, the defined flags
hold their values, and the undefined ones change only where they are drawn. -/
theorem execNext_of_flagWrites {i : Instr} {k : Kind} {s : State} {ws : List Write} {ds : List (Flag × Bool)}
    {us : List Flag} {x : Touched} (hk : recordKind i = some k) (hs : k ∈ s.cfg.simulated)
    (hr : ruleDiff i s = .ok (.ip (nextIp i s) :: (ws ++ flagWrites s ds us))) (hip : KeepIp ws)
    (hd : (ds.map Prod.fst).Nodup) (hx : Frame s (commit ws s) x) :
    ExecNext i s fun t => t.ip = nextIp i s ∧ (∀ r, t.reg r = (commit ws s).reg r) ∧
      (∀ f b, (f, b) ∈ ds → t.flag f = b) ∧
      Frame s t (x.add (touchFlags (ds.map Prod.fst ++ undefTouched s us))) := by
  have hc : commit (.ip (nextIp i s) :: (ws ++ flagWrites s ds us)) s =
      (commit (flagWrites s ds us) (commit ws s)).setIp (nextIp i s) := by
    rw [commit_cons, Write.apply_ip, commit_setIp (hip.append (flagWrites_keepIp s ds us)), commit_append]
  refine ⟨(commit (flagWrites s ds us) (commit ws s)).setIp (nextIp i s), ?_, rfl,
    flagWrites_reg s ds us (commit ws s), fun f b hb => flagWrites_flag hd hb (commit ws s),
    hx.trans (frame_flagWrites s ds us (commit ws s))⟩
  rw [exec_eq_complete hk, hr, complete_ok hs, hc]

theorem ExecNext.imp {i : Instr} {s : State} {P Q : State → Prop} (h : ∀ t, P t → Q t) (hP : ExecNext i s P) :
    ExecNext i s Q :=
  let ⟨t, ht, hp⟩ := hP
  ⟨t, ht, h t hp⟩

/-- SF, ZF and PF are those of `r` where they hold `SZP(r, w)` (42_alu_flags R201). -/
theorem resultFlags_of_szp {w : Width} {r : Nat} {t : State} (hr : r < modulus w)
    (h : ∀ f b, (f, b) ∈ szp w r → t.flag f = b) : ResultFlags t w r :=
  resultFlags_of hr (h _ _ (by simp [szp])) (h _ _ (by simp [szp])) (h _ _ (by simp [szp]))

/-! ### Bytes and words from numbers -/

/-- The two halves of `ax` where it is a number of two digits to base 256. -/
theorem reg8_of_ax_eq {t : State} {hi lo : Nat} (ht : t.reg .ax = BitVec.ofNat 16 (hi * 256 + lo)) (hlo : lo < 256) :
    t.reg8 .ah = BitVec.ofNat 8 hi ∧ (t.reg8 .al).toNat = lo := by
  have hah : t.reg8 .ah = hiByte (t.reg .ax) := rfl
  have hal : t.reg8 .al = loByte (t.reg .ax) := rfl
  rw [hah, hal, ht]
  refine ⟨BitVec.eq_of_toNat_eq ?_, ?_⟩
  · simp only [hiByte, BitVec.extractLsb'_toNat, BitVec.toNat_ofNat, Nat.shiftRight_eq_div_pow]
    omega
  · simp only [loByte, BitVec.extractLsb'_toNat, BitVec.toNat_ofNat, Nat.shiftRight_zero]
    omega

theorem ofNat_reduce_byte (n : Int) : BitVec.ofNat 8 (reduce .byte n) = BitVec.ofInt 8 n := by
  rw [← BitVec.ofInt_natCast, reduce_eq_emod]
  apply BitVec.eq_of_toInt_eq
  rw [BitVec.toInt_ofInt, BitVec.toInt_ofInt]
  exact Int.emod_bmod n 256

/-- A byte with `d` added under a condition, as the number the model computes (00_scope R10). -/
theorem ofNat_adjusted (b : Bool) (n : Nat) (d : Int) :
    BitVec.ofNat 8 (if b then reduce .byte (n + d) else n) =
      BitVec.ofNat 8 n + if b then BitVec.ofInt 8 d else 0 := by
  cases b with
  | false => simp
  | true => simp [ofNat_reduce_byte, BitVec.ofInt_add]

theorem adjusted_lt (b : Bool) {n : Nat} (hn : n < 256) (m : Int) : (if b then reduce .byte m else n) < 256 := by
  have := reduce_lt .byte m
  split
  · exact this
  · exact hn

/-! ### The bytes of the instructions -/

theorem reads_op {b : Byte} {i : Instr} (h : firstByte b = .body (.op i)) : Reads [b] i :=
  fun lk rest => decodeOne_eq_decodeBody lk h rest

/-- AAM and AAD: the second byte is fixed (30_encoding R128). -/
theorem decodeOne_op0A {b0 : Byte} {i : Instr} (h : firstByte b0 = .body (.op0A i)) (lk : Lockable) (b : Byte)
    (rest : List Byte) :
    decodeOne lk (b0 :: b :: rest) = if b = 0x0A then .ok (i, rest) else .error .reservedEncoding :=
  decodeOne_eq_decodeBody lk h (b :: rest)

/-! ### AAA and AAS -/

/-- The model's ASCII adjustment: `n` is the change of `al` modulo 16, and `hi` the adjusted `ah`. -/
theorem asciiAdjust_result {i : Instr} {k : Kind} {s : State} {delta deltaHi : Int} (n : Nat) (hi : Byte)
    {adjust : Bool} (hk : recordKind i = some k) (hs : k ∈ s.cfg.simulated)
    (hr : ruleDiff i s = asciiAdjustDiff i s delta deltaHi) (hn : delta % 16 = n)
    (hhi : hi = s.reg8 .ah + BitVec.ofInt 8 deltaHi)
    (ha : adjust = (decide ((s.reg8 .al).toNat % 16 > 9) || s.flag .AF)) :
    ExecNext i s fun t => t.ip = nextIp i s ∧
      (t.reg8 .al).toNat = (if adjust then ((s.reg8 .al).toNat + n) % 16 else (s.reg8 .al).toNat % 16) ∧
      t.reg8 .ah = (if adjust then hi else s.reg8 .ah) ∧ t.flag .AF = adjust ∧ t.flag .CF = adjust ∧
      Frame s t ((touchRegs [.ax]).add (touchFlags ([.CF, .AF] ++ undefTouched s [.PF, .ZF, .SF, .OF]))) := by
  have hlo : (if adjust then (((s.reg8 .al).toNat + delta) % 16).toNat else (s.reg8 .al).toNat % 16) =
      if adjust then ((s.reg8 .al).toNat + n) % 16 else (s.reg8 .al).toNat % 16 := by
    split <;> omega
  unfold asciiAdjustDiff at hr
  simp only [← ha, hlo] at hr
  refine (execNext_of_flagWrites hk hs hr (by simp [KeepIp, Write.key]) (by simp) (frame_setReg s _ _)).imp ?_
  rintro t ⟨hip, hreg, hflag, hframe⟩
  have hax := hreg .ax
  simp only [commit_cons, commit_nil, Write.apply_reg, State.setReg_reg, if_true] at hax
  obtain ⟨hah, hal⟩ := reg8_of_ax_eq hax (by split <;> omega)
  refine ⟨hip, hal, ?ah, hflag _ _ (by simp), hflag _ _ (by simp), hframe⟩
  case ah =>
    rw [hah, ofNat_adjusted, BitVec.ofNat_toNat, BitVec.setWidth_eq, hhi]
    cases adjust with
    | false => exact BitVec.add_zero _
    | true => rfl

/-- Settles O31: AAA and AAS are the ASCII adjustment by 6 and by -6, which is 10 modulo 16. -/
theorem asciiAdjustResult : Obligations.AsciiAdjustResult := fun s _ ha =>
  ⟨reads_op rfl, reads_op rfl,
    fun hs => asciiAdjust_result 6 (s.reg8 .ah + 1) rfl hs rfl rfl rfl ha,
    fun hs => asciiAdjust_result 10 (s.reg8 .ah - 1) rfl hs rfl rfl (BitVec.sub_eq_add_neg _ _) ha⟩

/-! ### DAA and DAS -/

/-- The model's decimal adjustment, `al'` being the adjusted `al`; both tests are of the `al` before the step. -/
theorem decimalAdjust_result {i : Instr} {k : Kind} {s : State} {sign : Int} (al' : Byte) {low high : Bool}
    (hk : recordKind i = some k) (hs : k ∈ s.cfg.simulated) (hr : ruleDiff i s = decimalAdjustDiff i s sign)
    (hal' : al' = s.reg8 .al + (if low then BitVec.ofInt 8 (sign * 6) else 0) +
      (if high then BitVec.ofInt 8 (sign * 0x60) else 0))
    (hlow : low = (decide ((s.reg8 .al).toNat % 16 > 9) || s.flag .AF))
    (hhigh : high = (decide ((s.reg8 .al).toNat > 0x99) || s.flag .CF)) :
    ExecNext i s fun t => t.ip = nextIp i s ∧ t.reg8 .al = al' ∧
      t.flag .AF = low ∧ t.flag .CF = high ∧ ResultFlags t .byte (t.reg8 .al).toNat ∧
      Frame s t ((touchHalves [.al]).add (touchFlags ([.CF, .PF, .AF, .ZF, .SF] ++ undefTouched s [.OF]))) := by
  unfold decimalAdjustDiff at hr
  simp only [← hlow, ← hhigh] at hr
  have hltLow := adjusted_lt low (s.reg8 .al).isLt ((s.reg8 .al).toNat + sign * 6)
  have hvalLow := ofNat_adjusted low (s.reg8 .al).toNat (sign * 6)
  rw [BitVec.ofNat_toNat, BitVec.setWidth_eq] at hvalLow
  generalize (if low then reduce .byte ((s.reg8 .al).toNat + sign * 6) else (s.reg8 .al).toNat) = x at *
  have hlt := adjusted_lt high hltLow (x + sign * 0x60)
  have hval := ofNat_adjusted high x (sign * 0x60)
  rw [hvalLow, ← hal'] at hval
  generalize (if high then reduce .byte (x + sign * 0x60) else x) = v at *
  refine (execNext_of_flagWrites hk hs hr (by simp [KeepIp, Write.key]) (by simp) (frame_setReg8 s _ _)).imp ?_
  rintro t ⟨hip, hreg, hflag, hframe⟩
  have hal : t.reg8 .al = BitVec.ofNat 8 v := by
    have h := congrArg loByte (hreg .ax)
    exact h.trans ((State.setReg8_reg8 s .al .al _).trans (if_pos rfl))
  refine ⟨hip, hal.trans hval, hflag _ _ (by simp), hflag _ _ (by simp), ?flags, hframe⟩
  case flags =>
    rw [hal, BitVec.toNat_ofNat, Nat.mod_eq_of_lt hlt]
    exact resultFlags_of hlt (hflag _ _ (by simp)) (hflag _ _ (by simp)) (hflag _ _ (by simp))

/-- Settles O32: DAA and DAS are the decimal adjustment by 6 and 60h, and by their negatives. -/
theorem decimalAdjustResult : Obligations.DecimalAdjustResult := by
  refine fun s low high hlow hhigh => ⟨reads_op rfl, reads_op rfl,
    fun hs => decimalAdjust_result _ rfl hs rfl rfl hlow hhigh,
    fun hs => decimalAdjust_result _ rfl hs rfl ?das hlow hhigh⟩
  case das =>
    simp only [BitVec.sub_eq_add_neg, apply_ite (- · : Byte → Byte)]
    rfl

/-! ### AAM, AAD, CBW and CWD -/

theorem aam_result {s : State} (hs : .aam ∈ s.cfg.simulated) :
    ExecNext .aam s fun t => t.ip = nextIp .aam s ∧ (t.reg8 .ah).toNat = (s.reg8 .al).toNat / 10 ∧
      (t.reg8 .al).toNat = (s.reg8 .al).toNat % 10 ∧ ResultFlags t .byte ((s.reg8 .al).toNat % 10) ∧
      Frame s t ((touchRegs [.ax]).add (touchFlags ([.PF, .ZF, .SF] ++ undefTouched s [.CF, .AF, .OF]))) := by
  have hlt : (s.reg8 .al).toNat < 256 := (s.reg8 .al).isLt
  refine (execNext_of_flagWrites rfl hs rfl (ws := [.reg .ax _]) (by simp [KeepIp, Write.key]) (by simp [szp])
    (frame_setReg s _ _)).imp ?_
  rintro t ⟨hip, hreg, hflag, hframe⟩
  obtain ⟨hah, hal⟩ := reg8_of_ax_eq (hreg .ax) (by omega)
  refine ⟨hip, ?ah, hal, resultFlags_of_szp (by rw [modulus]; omega) hflag, hframe⟩
  case ah => rw [hah, BitVec.toNat_ofNat, Nat.mod_eq_of_lt (by omega)]

theorem aad_result {s : State} (hs : .aad ∈ s.cfg.simulated) :
    ExecNext .aad s fun t => t.ip = nextIp .aad s ∧
      (t.reg .ax).toNat = ((s.reg8 .ah).toNat * 10 + (s.reg8 .al).toNat) % 256 ∧
      ResultFlags t .byte (((s.reg8 .ah).toNat * 10 + (s.reg8 .al).toNat) % 256) ∧
      Frame s t ((touchRegs [.ax]).add (touchFlags ([.PF, .ZF, .SF] ++ undefTouched s [.CF, .AF, .OF]))) := by
  have hlt := Nat.mod_lt ((s.reg8 .ah).toNat * 10 + (s.reg8 .al).toNat) (show 256 > 0 by decide)
  refine (execNext_of_flagWrites rfl hs rfl (ws := [.reg .ax _]) (by simp [KeepIp, Write.key]) (by simp [szp])
    (frame_setReg s _ _)).imp ?_
  rintro t ⟨hip, hreg, hflag, hframe⟩
  refine ⟨hip, ?ax, resultFlags_of_szp hlt hflag, hframe⟩
  case ax =>
    rw [hreg]
    exact Nat.mod_eq_of_lt (by omega)

theorem exec_cbw {s : State} (h : .cbw ∈ s.cfg.simulated) :
    exec .cbw s = .next ((s.setIp (nextIp .cbw s)).setReg .ax ((s.reg8 .al).signExtend 16)) :=
  (exec_eq_complete rfl s).trans (complete_ok h)

theorem exec_cwd {s : State} (h : .cwd ∈ s.cfg.simulated) :
    exec .cwd s = .next ((s.setIp (nextIp .cwd s)).setReg .dx (if (s.reg .ax).getLsbD 15 then 0xFFFF else 0)) :=
  (exec_eq_complete rfl s).trans (complete_ok h)

/-- The sign fill of CWD is the sign extension to a double word (44_arithmetic R312). -/
theorem signFill_append (v : Word) : (if v.getLsbD 15 then (0xFFFF : Word) else 0) ++ v = v.signExtend 32 := by
  rw [BitVec.signExtend_eq_append_of_le (by decide), BitVec.msb_eq_getLsbD_last]
  rfl

/-- Settles O33: the quotient and remainder by 10, the sum, and the two sign extensions. -/
theorem aamAadCbwCwdResult : Obligations.AamAadCbwCwdResult := by
  refine fun lk s b rest => ⟨decodeOne_op0A rfl lk b rest, decodeOne_op0A rfl lk b rest, reads_op rfl, reads_op rfl,
    aam_result, aad_result, fun h => ⟨_, exec_cbw h, rfl, ?cbw, ?cbwFrame⟩,
    fun h => ⟨_, exec_cwd h, rfl, ?cwd, ?cwdFrame⟩⟩
  case cbw =>
    rw [State.setReg_reg, if_pos rfl]
    exact BitVec.toInt_signExtend_of_le (by decide)
  case cbwFrame => exact (frame_setIp s _).trans (frame_setReg _ .ax _)
  case cwd =>
    rw [State.setReg_reg, State.setReg_reg, if_pos rfl, if_neg (nofun : Reg16.ax ≠ .dx), State.setIp_reg,
      signFill_append]
    exact BitVec.toInt_signExtend_of_le (by decide)
  case cwdFrame => exact (frame_setIp s _).trans (frame_setReg _ .dx _)

end Sys2Proof.Machine
end

section
/-! PROOFS. The jumps: the bytes they are read from (30_encoding R93, 40_decoder_prefixes R157), and the transfers that
write `ip` and at most one register beside it (47_control_transfer R365, R370 to R374, R379 to R399). -/

namespace Sys2Proof.Machine

/-! ### The bytes of the instructions -/

theorem reads_byte {b : Byte} {f : Byte → Instr} (h : firstByte b = .body (.byte f)) (v : Byte) :
    Reads [b, v] (f v) :=
  fun lk rest => decodeOne_eq_decodeBody lk h (v :: rest)

theorem reads_word {b : Byte} {f : Word → Instr} (h : firstByte b = .body (.word f)) (v : Word) :
    Reads [b, loByte v, hiByte v] (f v) := by
  refine fun lk rest => decodeOne_body lk h ?body
  case body => simp [decodeBody, readWord, bind, Except.bind, pure, Except.pure]

/-- The offset comes before the segment. -/
theorem reads_far {b : Byte} {f : Word → Word → Instr} (h : firstByte b = .body (.far f)) (sg off : Word) :
    Reads [b, loByte off, hiByte off, loByte sg, hiByte sg] (f sg off) := by
  refine fun lk rest => decodeOne_body lk h ?body
  case body => simp [decodeBody, readWord, bind, Except.bind, pure, Except.pure]

theorem Bare.no_override {w : Width} {op : Operand} (h : Bare w op) : op.ea?.bind Ea.seg = none := by
  obtain ⟨-, hseg⟩ := h
  cases op with
  | mem ea => exact hseg ea rfl
  | reg8 r | reg16 r => rfl

theorem readsWordRm {b : Byte} {sel : BitVec 3 → Ext} {ext : BitVec 3} {f : Operand → Instr}
    (h : firstByte b = .body (.modrm sel)) (hx : sel ext = .rm (some .word) f) : ReadsWordRm b ext f :=
  fun _ ho lk rest => decodeOne_body lk h (decodeBody_rm rest hx ho.1 ho.no_override)

theorem readsMemOnly {b : Byte} {sel : BitVec 3 → Ext} {ext : BitVec 3} {f : Ea → Instr}
    (h : firstByte b = .body (.modrm sel)) (hx : sel ext = .memOnly f) : ReadsMemOnly b ext f :=
  fun _ hn hs lk rest => decodeOne_body lk h (decodeBody_memOnly rest hx hn hs)

/-! ### Targets (47_control_transfer R365) -/

theorem target_byte {i : Instr} {s : State} (hn : nextIp i s = s.ip + 2) (disp : Byte) :
    target i disp.toInt s = s.ip + 2 + disp.signExtend 16 := by
  rw [target, hn]
  rfl

/-- The one `ip` entry of a two-byte transfer, its condition written as a proposition. -/
theorem jumpIf_eq {i : Instr} {s : State} {disp : Byte} {c : Bool} {p : Prop} [Decidable p]
    (hn : nextIp i s = s.ip + 2) (hc : c = true ↔ p) :
    jumpIf i s disp c = .ip (if p then s.ip + 2 + disp.signExtend 16 else s.ip + 2) := by
  rw [jumpIf, target_byte hn, hn, if_congr hc rfl rfl]

/-- Both words of a far pointer inside the data memory are read there (41_operands_addressing R189). -/
theorem readFar_ok {s : State} {ea : Ea} (h : farOk s ea = true) :
    readFar s ea = .ok (BitVec.ofNat 16 (wordAt s (eaPhys s ea)), BitVec.ofNat 16 (wordAt s (eaPhys s ea + 2))) := by
  have hfar : eaPhys s ea + 3 < memSize := of_decide_eq_true h
  have hoff : accessOk .word (eaPhys s ea) = true := decide_eq_true (by omega)
  have hsg : accessOk .word (eaPhys s ea + 2) = true := decide_eq_true (by omega)
  simp [readFar, memRead_ok hoff, memRead_ok hsg, valueAt, bind, Except.bind, pure, Except.pure]

/-! ### The step of a transfer -/

section
variable {i : Instr} {k : Kind} {s : State}

/-- A record whose rule gives a diff steps to the diff committed. -/
theorem exec_eq_commit {e : Write} {ws : List Write} (hk : recordKind i = some k) (hs : k ∈ s.cfg.simulated)
    (hr : ruleDiff i s = .ok (e :: ws)) : exec i s = .next (commit (e :: ws) s) := by
  rw [exec_eq_complete hk, hr, complete_ok hs]

theorem exec_of_conditionalDiff {disp : Byte} {c : Bool} {p : Prop} [Decidable p] (hk : recordKind i = some k)
    (hs : k ∈ s.cfg.simulated) (hn : nextIp i s = s.ip + 2) (hr : ruleDiff i s = conditionalDiff i s disp c)
    (hc : c = true ↔ p) :
    exec i s = .next (s.setIp (if p then s.ip + 2 + disp.signExtend 16 else s.ip + 2)) := by
  rw [exec_eq_commit hk hs hr, jumpIf_eq hn hc]
  rfl

/-- `cx` is decremented on both branches (47_control_transfer R396). -/
theorem exec_of_loopDiff {disp : Byte} {x : Bool} {p : Prop} [Decidable p] (hk : recordKind i = some k)
    (hs : k ∈ s.cfg.simulated) (hn : nextIp i s = s.ip + 2) (hr : ruleDiff i s = loopDiff i s disp x)
    (hc : (s.reg .cx - 1 != 0 && x) = true ↔ p) :
    exec i s = .next ((s.setIp (if p then s.ip + 2 + disp.signExtend 16 else s.ip + 2)).setReg .cx
      (s.reg .cx - 1)) := by
  rw [exec_eq_commit hk hs hr, jumpIf_eq hn hc]
  rfl

end

/-! ### The conditional jumps -/

/-- The model writes SF = OF as an equality, the table as the negation of their exclusive or. -/
theorem beq_eq_not_xor (a b : Bool) : (a == b) = !xor a b := (Bool.not_not _).symm

/-- A row of the table of conditional jumps: `c` is the condition of the model, `c'` that of the table. -/
theorem conditionalJump_row {s : State} {disp b : Byte} {f : Byte → Instr} {k : Kind} {c c' : Bool}
    (hb : firstByte b = .body (.byte f)) (hk : recordKind (f disp) = some k) (hn : nextIp (f disp) s = s.ip + 2)
    (hr : ruleDiff (f disp) s = conditionalDiff (f disp) s disp c) (hc : c = c') :
    Reads [b, disp] (f disp) ∧ (k ∈ s.cfg.simulated →
      exec (f disp) s = .next { s with ip := if c' then s.ip + 2 + disp.signExtend 16 else s.ip + 2 }) :=
  ⟨reads_byte hb disp, fun hs => exec_of_conditionalDiff hk hs hn hr (by rw [hc])⟩

/-- Settles O49: each row of the table is a row of the opcode map whose diff is the one `ip` entry; the conditions of
JNBE, JNL and JNLE are negations the model writes out. -/
theorem conditionalJumpResult : Obligations.ConditionalJumpResult := by
  intro s disp
  simp only [conditionTable, List.forall_mem_append, List.forall_mem_cons, List.not_mem_nil, false_implies,
    implies_true, and_true]
  refine ⟨⟨?jo, ?jno, ?jb, ?jnb, ?je, ?jne, ?jbe, ?jnbe⟩, ?js, ?jns, ?jp, ?jnp, ?jl, ?jnl, ?jle, ?jnle⟩
  case jnbe => exact conditionalJump_row rfl rfl rfl rfl (Bool.not_or ..).symm
  case jnl => exact conditionalJump_row rfl rfl rfl rfl (beq_eq_not_xor ..)
  case jnle => exact conditionalJump_row rfl rfl rfl rfl (by rw [Bool.not_or, beq_eq_not_xor])
  all_goals exact conditionalJump_row rfl rfl rfl rfl rfl

/-! ### The unconditional jumps -/

theorem exec_jmpNear {s : State} (disp : Word) (hs : .jmpNear ∈ s.cfg.simulated) :
    exec (.jmpNear disp) s = .next (s.setIp (s.ip + 3 + disp)) := by
  have ht : target (.jmpNear disp) disp.toInt s = s.ip + 3 + disp := by
    rw [target, BitVec.ofInt_toInt]
    rfl
  rw [exec_eq_commit rfl hs rfl, ht]
  rfl

theorem exec_jmpShort {s : State} (disp : Byte) (hs : .jmpShort ∈ s.cfg.simulated) :
    exec (.jmpShort disp) s = .next (s.setIp (s.ip + 2 + disp.signExtend 16)) := by
  rw [exec_eq_commit rfl hs rfl, target_byte rfl]
  rfl

theorem exec_jmpNearInd {s : State} {op : Operand} (hs : .jmpNearInd ∈ s.cfg.simulated)
    (ho : operandOk s .word op = true) :
    exec (.jmpNearInd op) s = .next (s.setIp (BitVec.ofNat 16 (operandVal s .word op))) := by
  have hr : ruleDiff (.jmpNearInd op) s = .ok [.ip (BitVec.ofNat 16 (operandVal s .word op))] := by
    rw [ruleDiff, diffJmpNearInd, readOp_ok ho]
    rfl
  exact exec_eq_commit rfl hs hr

theorem exec_jmpFar {s : State} (sg off : Word) (hs : .jmpFar ∈ s.cfg.simulated) :
    exec (.jmpFar sg off) s = .next ((s.setIp off).setSeg .cs sg) := by
  rw [exec_eq_commit rfl hs rfl]
  rfl

theorem exec_jmpFarInd {s : State} {ea : Ea} (hs : .jmpFarInd ∈ s.cfg.simulated) (hf : farOk s ea = true) :
    exec (.jmpFarInd ea) s = .next ((s.setIp (BitVec.ofNat 16 (wordAt s (eaPhys s ea)))).setSeg .cs
      (BitVec.ofNat 16 (wordAt s (eaPhys s ea + 2)))) := by
  have hr : ruleDiff (.jmpFarInd ea) s = .ok [.ip (BitVec.ofNat 16 (wordAt s (eaPhys s ea))),
      .seg .cs (BitVec.ofNat 16 (wordAt s (eaPhys s ea + 2)))] := by
    rw [ruleDiff, diffJmpFarInd, readFar_ok hf]
    rfl
  exact exec_eq_commit rfl hs hr

/-- Settles O47: the rows of the five jumps in the opcode map, and the step of each. -/
theorem jmpResult : Obligations.JmpResult := fun _ =>
  ⟨⟨fun b v sg => ⟨reads_word rfl v, reads_byte rfl b, reads_far rfl sg v⟩, readsWordRm rfl rfl, readsMemOnly rfl rfl⟩,
    exec_jmpNear, exec_jmpShort, fun _ _ => exec_jmpNearInd, exec_jmpFar, fun _ _ => exec_jmpFarInd⟩

/-! ### The LOOP family and JCXZ -/

/-- Settles O50: each of the three loops is the loop diff with its own test beside `cx`, and JCXZ a conditional jump. -/
theorem loopResult : Obligations.LoopResult := by
  rintro s disp _ _ rfl rfl
  exact ⟨⟨reads_byte rfl disp, reads_byte rfl disp, reads_byte rfl disp, reads_byte rfl disp⟩,
    fun hs => exec_of_loopDiff rfl hs rfl rfl (by simp),
    fun hs => exec_of_loopDiff rfl hs rfl rfl (by simp),
    fun hs => exec_of_loopDiff rfl hs rfl rfl (by simp),
    fun hs => exec_of_conditionalDiff rfl hs rfl rfl beq_iff_eq⟩

end Sys2Proof.Machine
end

section
/-! PROOFS. The flag instructions (48_processor_control R410 to R416): a byte of its own each, and a diff of `ip` and
one flag. -/

namespace Sys2Proof.Machine

/-- A record of one byte whose diff is `ip` and one flag. -/
theorem exec_of_flagDiff {i : Instr} {k : Kind} {s : State} {f : Flag} {v : Bool} (hk : recordKind i = some k)
    (hs : k ∈ s.cfg.simulated) (hn : nextIp i s = s.ip + 1) (hr : ruleDiff i s = flagDiff i s f v) :
    exec i s = .next ((s.setIp (s.ip + 1)).setFlag f v) := by
  rw [exec_eq_commit hk hs hr, hn]
  rfl

/-- A row of the table of flag instructions. -/
theorem flagInstruction_row {b : Byte} {i : Instr} {k : Kind} {s : State} {f : Flag} {v : Bool}
    (hb : firstByte b = .body (.op i)) (hk : recordKind i = some k) (hn : nextIp i s = s.ip + 1)
    (hr : ruleDiff i s = flagDiff i s f v) :
    Reads [b] i ∧ (k ∈ s.cfg.simulated → exec i s = .next ((s.setIp (s.ip + 1)).setFlag f v)) :=
  ⟨reads_op hb, fun hs => exec_of_flagDiff hk hs hn hr⟩

/-- Settles O52: each row of the table is a row of the opcode map whose diff is `ip` and the flag of the table. -/
theorem flagInstructionResult : Obligations.FlagInstructionResult := by
  intro s
  simp only [List.forall_mem_cons, List.not_mem_nil, false_implies, implies_true, and_true]
  refine ⟨?clc, ?cmc, ?stc, ?cld, ?std, ?cli, ?sti⟩
  all_goals exact flagInstruction_row rfl rfl rfl rfl

end Sys2Proof.Machine
end

section
/-! PROOFS. The records that leave the block stuck (60_exceptions R437): the empty diff of a kind outside `SIMULATED`,
and the rules whose diff is empty whatever `SIMULATED` holds (43_data_transfer R257 to R261, 48_processor_control R417,
R418, R420). -/

namespace Sys2Proof.Machine

/-! ### The empty diff -/

/-- Outside `SIMULATED` the rule of the kind is not consulted. -/
theorem complete_of_not_simulated {k : Kind} {s : State} (h : k ∉ s.cfg.simulated) (d : Except Fault (List Write)) :
    complete k s d = .next (stuck s) := if_neg h

/-- A rule that gives the empty diff leaves the block stuck, inside `SIMULATED` and outside it. -/
theorem complete_nil (k : Kind) (s : State) : complete k s (.ok []) = .next (stuck s) := by
  by_cases hk : k ∈ s.cfg.simulated
  · exact if_pos hk
  · exact complete_of_not_simulated hk _

theorem stepDiff_of_not_simulated {i : Instr} {k : Kind} {s : State} (hk : recordKind i = some k)
    (hs : k ∉ s.cfg.simulated) : stepDiff i s = .ok [] := by
  simp [stepDiff, hk, hs]

/-! ### The step of a record -/

theorem exec_of_not_simulated {i : Instr} {k : Kind} {s : State} (hk : recordKind i = some k)
    (hs : k ∉ s.cfg.simulated) : exec i s = .next (stuck s) := by
  rw [exec_eq_complete hk, complete_of_not_simulated hs]

theorem exec_of_empty_ruleDiff {i : Instr} {k : Kind} {s : State} (hk : recordKind i = some k)
    (hr : ruleDiff i s = .ok []) : exec i s = .next (stuck s) := by
  rw [exec_eq_complete hk, hr, complete_nil]

/-- Settles O17: a kind outside `SIMULATED` has the empty diff; each of the seven records has a rule that gives it; the
bytes are rows of the opcode map, those of IN and OUT at both widths. -/
theorem unsimulatedKindIsStuck : Obligations.UnsimulatedKindIsStuck := by
  refine ⟨fun s i k hk hs => ⟨stepDiff_of_not_simulated hk hs, exec_of_not_simulated hk hs⟩, fun s w p b =>
    ⟨?always, ?inFixed, ?inVar, ?outFixed, ?outVar, reads_op rfl, reads_op rfl⟩⟩
  case always =>
    simp only [List.forall_mem_cons, List.not_mem_nil, false_implies, implies_true, and_true]
    refine ⟨?_, ?_, ?_, ?_, ?_, ?_, ?_⟩
    all_goals exact exec_of_empty_ruleDiff rfl rfl
  case inFixed | outFixed => cases w <;> exact reads_byte rfl p
  case inVar | outVar => cases w <;> exact reads_op rfl

end Sys2Proof.Machine
end

section
/-! PROOFS. The body of every well-formed record decodes to the record without its lock and repeat: one lemma for each
encoder of Decode.lean, over the row of the opcode map it writes for (30_encoding R91 to R93, R105). -/

namespace Sys2Proof

/-! ### Rows of the opcode map -/

/-- What follows the opcode byte `b` is a ModRM byte, whose `reg` field `ext` selects `x`. -/
def ExtRow (b : Byte) (ext : BitVec 3) (x : Ext) : Prop :=
  ∃ sel, firstByte b = .body (.modrm sel) ∧ sel ext = x

/-- An r/m operand decodes from its encoding, with the override it has where it is memory. -/
theorem decodeRm_of_isOf {size : Option Width} {seg : Option Sreg} (reg : BitVec 3) {op : Operand} (rest : List Byte)
    (ho : op.isOf size = true) (hs : ∀ ea, op.ea? = some ea → ea.seg = seg) :
    ∃ m tail, encodeRm reg op = m :: tail ∧ ModRM.reg m = reg ∧
      decodeRm seg size m (tail ++ rest) = .ok (op, rest) := by
  cases op with
  | reg8 r =>
    obtain rfl : size = some .byte := by
      match size, ho with
      | some .byte, _ => rfl
    exact ⟨_, [], rfl, ModRM.reg_byte .., by simp [decodeRm, regOperand]⟩
  | reg16 r =>
    have hw : size.getD .word = .word := by
      match size, ho with
      | some .word, _ => rfl
      | none, _ => rfl
    exact ⟨_, [], rfl, ModRM.reg_byte .., by simp [decodeRm, regOperand, hw]⟩
  | mem ea =>
    obtain ⟨hwf, rfl⟩ : ea.wf = true ∧ ea.size = size := by
      cases size <;> simpa [Operand.isOf, Operand.isAt, Operand.isEsc, Ea.isNull] using ho
    obtain ⟨m, tail, he, hr, hm, hd⟩ := decodeEa_encodeEa reg ea rest hwf
    rw [hs ea rfl] at hd
    exact ⟨m, tail, he, hr, by rw [decodeRm, if_neg hm, hd]⟩

section
variable {b : Byte} {ext : BitVec 3} {seg : Option Sreg} {op : Operand} {rest : List Byte}

theorem decodeBody_extRow_rm {sel : BitVec 3 → Ext} {size : Option Width} {f : Operand → Instr}
    (hx : sel ext = .rm size f) (ho : op.isOf size = true) (hs : ∀ ea, op.ea? = some ea → ea.seg = seg) :
    decodeBody seg (.modrm sel) (encodeRm ext op ++ rest) = .ok (f op, rest) := by
  obtain ⟨m, tail, he, hr, hd⟩ := decodeRm_of_isOf ext rest ho hs
  simp [decodeBody, he, hr, hx, decodeExt, hd, bind, Except.bind, pure, Except.pure]

theorem decodeBody_extRow_rmImm8 {sel : BitVec 3 → Ext} {w : Width} {f : Operand → Byte → Instr} {v : Byte}
    (hx : sel ext = .rmImm8 w f) (ho : op.isAt w = true) (hs : ∀ ea, op.ea? = some ea → ea.seg = seg) :
    decodeBody seg (.modrm sel) (encodeRm ext op ++ v :: rest) = .ok (f op v, rest) := by
  obtain ⟨m, tail, he, hr, hd⟩ := decodeRm_of_isOf ext (size := some w) (v :: rest) ho hs
  simp [decodeBody, he, hr, hx, decodeExt, hd, bind, Except.bind, pure, Except.pure]

theorem decodeBody_extRow_rmImm16 {sel : BitVec 3 → Ext} {f : Operand → Word → Instr} {v : Word}
    (hx : sel ext = .rmImm16 f) (ho : op.isAt .word = true) (hs : ∀ ea, op.ea? = some ea → ea.seg = seg) :
    decodeBody seg (.modrm sel) (encodeRm ext op ++ (encodeWord v ++ rest)) = .ok (f op v, rest) := by
  obtain ⟨m, tail, he, hr, hd⟩ := decodeRm_of_isOf ext (size := some .word) (encodeWord v ++ rest) ho hs
  simp [decodeBody, he, hr, hx, decodeExt, hd, bind, Except.bind, pure, Except.pure]

theorem decodeBody_extRow_memOnly {sel : BitVec 3 → Ext} {f : Ea → Instr} {ea : Ea} (hx : sel ext = .memOnly f)
    (hn : ea.isNull = true) (hs : ea.seg = seg) :
    decodeBody seg (.modrm sel) (encodeEa ext ea ++ rest) = .ok (f ea, rest) := by
  obtain ⟨hwf, hsize⟩ : ea.wf = true ∧ ea.size = none := by simpa [Ea.isNull] using hn
  obtain ⟨m, tail, he, hr, hm, hd⟩ := decodeEa_encodeEa ext ea rest hwf
  rw [hs, hsize] at hd
  simpa [decodeBody, he, hr, hx, decodeExt, hd, bind, Except.bind, pure, Except.pure] using hm

end

/-! ### The encoders -/

/-- The body bytes of `i` decode to `j`, with the override its memory operand has; where it has none, with any. -/
def BodyReads (i j : Instr) : Prop :=
  ∃ b f tail, encodeBody i = b :: tail ∧ firstByte b = .body f ∧
    ∀ seg rest, (∀ ea, i.mem? = some ea → ea.seg = seg) → decodeBody seg f (tail ++ rest) = .ok (j, rest)

section
variable {i j : Instr} {b : Byte}

theorem bodyReads_op (he : encodeBody i = [b]) (hb : firstByte b = .body (.op j)) : BodyReads i j :=
  ⟨b, _, [], he, hb, fun _ _ _ => rfl⟩

theorem bodyReads_byte {f : Byte → Instr} {v : Byte} (he : encodeBody i = [b, v])
    (hb : firstByte b = .body (.byte f)) : BodyReads i (f v) :=
  ⟨b, _, [v], he, hb, fun _ _ _ => rfl⟩

theorem bodyReads_word {f : Word → Instr} {v : Word} (he : encodeBody i = b :: encodeWord v)
    (hb : firstByte b = .body (.word f)) : BodyReads i (f v) :=
  ⟨b, _, _, he, hb, fun _ _ _ => by simp [decodeBody, bind, Except.bind, pure, Except.pure]⟩

theorem bodyReads_far {f : Word → Word → Instr} {sg off : Word}
    (he : encodeBody i = b :: (encodeWord off ++ encodeWord sg)) (hb : firstByte b = .body (.far f)) :
    BodyReads i (f sg off) :=
  ⟨b, _, _, he, hb, fun _ _ _ => by simp [decodeBody, bind, Except.bind, pure, Except.pure]⟩

theorem bodyReads_op0A (he : encodeBody i = [b, 0x0A]) (hb : firstByte b = .body (.op0A j)) : BodyReads i j :=
  ⟨b, _, [0x0A], he, hb, fun _ _ _ => rfl⟩

theorem bodyReads_accMem {w : Width} {f : Ea → Instr} {base : Byte} {ea : Ea}
    (he : encodeBody i = encodeAccMem base w ea) (hm : i.mem? = some ea)
    (hb : firstByte (base ||| w.bit) = .body (.accMem w f))
    (hw : (ea.wf && ea.kind == .direct && ea.size == some w) = true) : BodyReads i (f ea) := by
  obtain ⟨kind, disp, seg, size⟩ := ea
  simp only [Bool.and_eq_true, beq_iff_eq] at hw
  obtain ⟨⟨hwf, rfl⟩, rfl⟩ := hw
  cases disp with
  | none | d8 => cases hwf
  | d16 v =>
    refine ⟨_, _, _, he, hb, fun sg rest hs => ?_⟩
    obtain rfl := hs _ hm
    simp [decodeBody, bind, Except.bind, pure, Except.pure]

theorem bodyReads_rm {ext : BitVec 3} {size : Option Width} {f : Operand → Instr} {op : Operand}
    (he : encodeBody i = b :: encodeRm ext op) (hm : i.mem? = op.ea?) (hb : ExtRow b ext (.rm size f))
    (ho : op.isOf size = true) : BodyReads i (f op) := by
  obtain ⟨sel, hf, hx⟩ := hb
  exact ⟨b, _, _, he, hf, fun _ _ hs => decodeBody_extRow_rm hx ho (hm ▸ hs)⟩

theorem bodyReads_memOnly {ext : BitVec 3} {f : Ea → Instr} {ea : Ea} (he : encodeBody i = b :: encodeEa ext ea)
    (hm : i.mem? = some ea) (hb : ExtRow b ext (.memOnly f)) (hn : ea.isNull = true) : BodyReads i (f ea) := by
  obtain ⟨sel, hf, hx⟩ := hb
  exact ⟨b, _, _, he, hf, fun _ _ hs => decodeBody_extRow_memOnly hx hn (hs ea hm)⟩

theorem bodyReads_rmImm8 {ext : BitVec 3} {w : Width} {f : Operand → Byte → Instr} {op : Operand} {v : Byte}
    (he : encodeBody i = b :: (encodeRm ext op ++ [v])) (hm : i.mem? = op.ea?) (hb : ExtRow b ext (.rmImm8 w f))
    (ho : op.isAt w = true) : BodyReads i (f op v) := by
  obtain ⟨sel, hf, hx⟩ := hb
  exact ⟨b, _, _, he, hf, fun _ _ hs => by
    rw [List.append_assoc]; exact decodeBody_extRow_rmImm8 hx ho (hm ▸ hs)⟩

theorem bodyReads_rmImm16 {ext : BitVec 3} {f : Operand → Word → Instr} {op : Operand} {v : Word}
    (he : encodeBody i = b :: (encodeRm ext op ++ encodeWord v)) (hm : i.mem? = op.ea?)
    (hb : ExtRow b ext (.rmImm16 f)) (ho : op.isAt .word = true) : BodyReads i (f op v) := by
  obtain ⟨sel, hf, hx⟩ := hb
  exact ⟨b, _, _, he, hf, fun _ _ hs => by
    rw [List.append_assoc]; exact decodeBody_extRow_rmImm16 hx ho (hm ▸ hs)⟩

end

/-! ### Operands of a width -/

theorem Operand.width_of_isAt {w : Width} {op : Operand} (h : op.isAt w = true) : op.width = w := by
  cases op <;> simp_all [Operand.isAt, Operand.width]

theorem Operand.isAt_width {op : Operand} (h : op.isRm = true) : op.isAt op.width = true := by
  simp only [Operand.isRm, Bool.or_eq_true] at h
  obtain h | h := h <;> rwa [Operand.width_of_isAt h]

theorem pairWidth_of_isAt {w : Width} {a b : Operand} (ha : a.isAt w = true) (hb : b.isAt w = true) :
    pairWidth a b = w := by
  unfold pairWidth
  split
  · exact Operand.width_of_isAt hb
  · exact Operand.width_of_isAt ha

/-- A register operand is its number in the catalog of its width. -/
theorem regOperand_regCode {w : Width} {op : Operand} (h : op.isAt w = true) (hr : op.isMem = false) :
    regOperand w op.regCode = op := by
  cases op with
  | reg8 r =>
    obtain rfl : w = .byte := by simpa [Operand.isAt] using h
    simp [regOperand, Operand.regCode]
  | reg16 r =>
    obtain rfl : w = .word := by simpa [Operand.isAt] using h
    simp [regOperand, Operand.regCode]
  | mem ea => cases hr

theorem Operand.ea?_of_not_isMem {op : Operand} (h : op.isMem = false) : op.ea? = none := by
  cases op with
  | reg8 | reg16 => rfl
  | mem => cases h

theorem isAt_of_pairDW {a b : Operand} (h : pairDW a b = true) :
    ∃ w, a.isAt w = true ∧ b.isAt w = true ∧ (a.isMem = false ∨ b.isMem = false) := by
  simp only [pairDW, Bool.and_eq_true, Bool.or_eq_true, Bool.not_eq_true', Bool.and_eq_false_iff] at h
  obtain ⟨⟨ha, hb⟩ | ⟨ha, hb⟩, hm⟩ := h
  · exact ⟨.byte, ha, hb, hm⟩
  · exact ⟨.word, ha, hb, hm⟩

theorem isAt_of_pairW {a b : Operand} (h : pairW a b = true) :
    ∃ w, a.isAt w = true ∧ b.isAt w = true ∧ b.isMem = false := by
  simp only [pairW, Bool.and_eq_true, Bool.or_eq_true, Bool.not_eq_true'] at h
  obtain ⟨⟨ha, hb⟩ | ⟨ha, hb⟩, hm⟩ := h
  · exact ⟨.byte, ha, hb, hm⟩
  · exact ⟨.word, ha, hb, hm⟩

theorem isAt_of_immW {op : Operand} {imm : Imm} (h : immW op imm = true) :
    (op.isAt .byte = true ∧ ∃ v, imm = .b v) ∨ (op.isAt .word = true ∧ ∃ v, imm = .w v) := by
  cases imm with
  | b v => exact .inl ⟨by simpa [immW, Imm.isAt] using h, v, rfl⟩
  | w v => exact .inr ⟨by simpa [immW, Imm.isAt] using h, v, rfl⟩

/-! ### The families with a width bit -/

section
variable {i : Instr} {base : Byte} {ext : BitVec 3} {op : Operand} {imm : Imm}

/-- `MODRM_EXT_W`. -/
theorem bodyReads_ext {f : Operand → Instr} (he : encodeBody i = encodeExt base ext op) (hm : i.mem? = op.ea?)
    (hb : ∀ w : Width, ExtRow (base ||| w.bit) ext (.rm (some w) f)) (ho : op.isRm = true) : BodyReads i (f op) :=
  bodyReads_rm he hm (hb op.width) (Operand.isAt_width ho)

/-- `MODRM_EXT_VW`. -/
theorem bodyReads_shift {f : Operand → ShiftCount → Instr} {c : ShiftCount} (he : encodeBody i = encodeVW ext op c)
    (hm : i.mem? = op.ea?)
    (hb : ∀ w : Width, ExtRow (0xD0 ||| c.bits ||| w.bit) ext (.rm (some w) fun op => f op c))
    (ho : op.isRm = true) : BodyReads i (f op c) :=
  bodyReads_rm he hm (hb op.width) (Operand.isAt_width ho)

/-- `MODRM_EXT_W_IMM`. -/
theorem bodyReads_extImm {f : Operand → Imm → Instr} (he : encodeBody i = encodeExtImm base ext op imm)
    (hm : i.mem? = op.ea?) (hb : ∀ w : Width, ExtRow (base ||| w.bit) ext (extImm w f)) (hi : immW op imm = true) :
    BodyReads i (f op imm) := by
  obtain ⟨ho, v, rfl⟩ | ⟨ho, v, rfl⟩ := isAt_of_immW hi
  · rw [encodeExtImm, Operand.width_of_isAt ho] at he
    exact bodyReads_rmImm8 he hm (hb .byte) ho
  · rw [encodeExtImm, Operand.width_of_isAt ho] at he
    exact bodyReads_rmImm16 he hm (hb .word) ho

/-- `MODRM_EXT_SW_IMM`, for the arithmetic rows. -/
theorem bodyReads_immGroup {f : Operand → Imm → Instr} (he : encodeBody i = encodeSW ext op imm)
    (hm : i.mem? = op.ea?) (h80 : ExtRow 0x80 ext (extImm8 .byte f)) (h81 : ExtRow 0x81 ext (extImm16 f))
    (h83 : ExtRow 0x83 ext (extImm8 .word f)) (hi : immSW op imm = true) : BodyReads i (f op imm) := by
  simp only [immSW, Bool.or_eq_true, Bool.and_eq_true] at hi
  obtain ⟨ho, hi⟩ | ho := hi
  · simp only [encodeSW, Operand.width_of_isAt ho] at he
    cases imm with
    | b v => exact bodyReads_rmImm8 he hm h80 ho
    | w v => cases hi
  · simp only [encodeSW, Operand.width_of_isAt ho] at he
    cases imm with
    | b v => exact bodyReads_rmImm8 he hm h83 ho
    | w v => exact bodyReads_rmImm16 he hm h81 ho

/-- `MODRM_EXT_SW_IMM`, for the logic rows, which have no sign-extended byte. -/
theorem bodyReads_logicGroup {f : Operand → Imm → Instr} (he : encodeBody i = encodeSW ext op imm)
    (hm : i.mem? = op.ea?) (hb : ∀ w : Width, ExtRow (0x80 ||| w.bit) ext (extImm w f)) (hi : immW op imm = true) :
    BodyReads i (f op imm) := by
  refine bodyReads_extImm (base := 0x80) (ext := ext) (he.trans ?_) hm hb hi
  obtain ⟨ho, v, rfl⟩ | ⟨ho, v, rfl⟩ := isAt_of_immW hi
  all_goals
    simp only [encodeSW, encodeExtImm, Operand.width_of_isAt ho]
    rfl

/-- `ACC_IMM`. -/
theorem bodyReads_acc {f : Imm → Instr} (he : encodeBody i = encodeAcc base imm)
    (hb : firstByte (base ||| 0) = .body (.byte fun b => f (.b b)))
    (hw : firstByte (base ||| 1) = .body (.word fun v => f (.w v))) : BodyReads i (f imm) := by
  cases imm with
  | b v => exact bodyReads_byte (f := fun b => f (.b b)) he hb
  | w v => exact bodyReads_word (f := fun v => f (.w v)) he hw

/-- `MODRM_W`. -/
theorem bodyReads_pairW {f : Operand → Operand → Instr} {a b : Operand} (he : encodeBody i = encodeW base a b)
    (hm : i.mem? = a.ea?.or b.ea?) (hb : ∀ w : Width, firstByte (base ||| w.bit) = rowRmReg w f)
    (hp : pairW a b = true) : BodyReads i (f a b) := by
  obtain ⟨w, ha, hb', hr⟩ := isAt_of_pairW hp
  rw [encodeW, pairWidth_of_isAt ha hb'] at he
  rw [Operand.ea?_of_not_isMem hr, Option.or_none] at hm
  have h := bodyReads_rm he hm ⟨_, hb w, rfl⟩ ha
  rwa [regOperand_regCode hb' hr] at h

/-- `MODRM_DW`. -/
theorem bodyReads_pairDW {f : Operand → Operand → Instr} {a b : Operand} (he : encodeBody i = encodeDW base a b)
    (hm : i.mem? = a.ea?.or b.ea?) (h0 : ∀ w : Width, firstByte (base ||| w.bit) = rowRmReg w f)
    (h2 : ∀ w : Width, firstByte (base ||| 2 ||| w.bit) = rowRegRm w f) (hp : pairDW a b = true) :
    BodyReads i (f a b) := by
  by_cases hmem : b.isMem = true
  case neg =>
    rw [encodeDW, if_neg hmem] at he
    exact bodyReads_pairW he hm h0 (by simp_all [pairDW, pairW])
  case pos =>
    obtain ⟨w, ha, hb, hr⟩ := isAt_of_pairDW hp
    have hr := hr.resolve_right (by simp [hmem])
    rw [encodeDW, if_pos hmem, pairWidth_of_isAt ha hb] at he
    rw [Operand.ea?_of_not_isMem hr, Option.none_or] at hm
    have h := bodyReads_rm he hm ⟨_, h2 w, rfl⟩ hb
    rwa [regOperand_regCode ha hr] at h

end

/-- The rows of ESC, by the low bits of the opcode byte. -/
theorem firstByte_esc (x : BitVec 3) : firstByte (0xD8 ||| x.setWidth 8) = rowEsc x := by
  rw [← Reg16.code_ofCode x]
  cases Reg16.ofCode x <;> rfl

/-- The two halves of the opcode of ESC. -/
theorem esc_opcode_append (c : BitVec 6) : c.extractLsb' 3 3 ++ c.extractLsb' 0 3 = c := by
  revert c; decide

end Sys2Proof
end

section
/-! PROOFS. Decoding the encoding of a record gives the record (30_encoding, 40_decoder_prefixes R140): its prefix bytes
make the pending context, its body the record without lock and repeat, and the check at the end of the body folds the
prefixes back in. -/

namespace Sys2Proof

/-! ### A record without its lock and repeat -/

/-- The record of the body's own bytes: no lock and no repeat. -/
def Instr.unprefixed : Instr → Instr
  | .xchgRmReg _ a b => .xchgRmReg false a b
  | .addRmReg _ a b => .addRmReg false a b
  | .adcRmReg _ a b => .adcRmReg false a b
  | .subRmReg _ a b => .subRmReg false a b
  | .sbbRmReg _ a b => .sbbRmReg false a b
  | .andRmReg _ a b => .andRmReg false a b
  | .orRmReg _ a b => .orRmReg false a b
  | .xorRmReg _ a b => .xorRmReg false a b
  | .addRmImm _ a imm => .addRmImm false a imm
  | .adcRmImm _ a imm => .adcRmImm false a imm
  | .subRmImm _ a imm => .subRmImm false a imm
  | .sbbRmImm _ a imm => .sbbRmImm false a imm
  | .andRmImm _ a imm => .andRmImm false a imm
  | .orRmImm _ a imm => .orRmImm false a imm
  | .xorRmImm _ a imm => .xorRmImm false a imm
  | .incRm _ a => .incRm false a
  | .decRm _ a => .decRm false a
  | .neg _ a => .neg false a
  | .not _ a => .not false a
  | .movs w _ => .movs w .none
  | .cmps w _ => .cmps w .none
  | .scas w _ => .scas w .none
  | .lods w _ => .lods w .none
  | .stos w _ => .stos w .none
  | i => i

/-- A record with neither is its own body; the others carry one of the two. -/
theorem Instr.unprefixed_eq_self {i : Instr} (hl : i.isLocked = false) (hr : i.repField = .none) :
    i.unprefixed = i := by
  cases i <;> simp_all [Instr.unprefixed, Instr.isLocked, Instr.repField]

/-- The lock of a well-formed record is the one `ConsumeLock` gives its body. -/
theorem Instr.consumeLock_unprefixed {lk : Lockable} {i : Instr} (hw : WellFormed lk i = true)
    (hl : i.isLocked = true) : i.unprefixed.consumeLock lk = some (true, i) ∧ i.repField = .none := by
  cases i
  case xchgRmReg | addRmReg | adcRmReg | subRmReg | sbbRmReg | andRmReg | orRmReg | xorRmReg | addRmImm | adcRmImm
    | subRmImm | sbbRmImm | andRmImm | orRmImm | xorRmImm | incRm | decRm | neg | not =>
    obtain rfl : _ = true := hl
    simp only [WellFormed, lockOk, Bool.and_eq_true, Bool.not_true, Bool.false_or] at hw
    exact ⟨by simp [Instr.unprefixed, Instr.consumeLock, hw.2], rfl⟩
  all_goals cases hl

/-- The repeat of a record is the one `ConsumeRep` gives its body. -/
theorem Instr.consumeRep_unprefixed {i : Instr} (hr : i.repField ≠ .none) :
    i.unprefixed.consumeRep i.repField = some i ∧ i.isLocked = false := by
  cases i
  case movs | cmps | scas | lods | stos => exact ⟨rfl, rfl⟩
  all_goals exact absurd rfl hr

set_option maxRecDepth 8000 in
theorem mem_notUsedBytes : ∀ {b : Byte}, isNotUsed b = true → b ∈ Machine.notUsedBytes := by decide

/-- The row of the opcode map each record's body is encoded for. -/
theorem bodyReads_unprefixed {lk : Lockable} {i : Instr} (h : WellFormed lk i = true) :
    BodyReads i i.unprefixed := by
  cases i
  case movRmReg | cmpRmReg =>
    exact bodyReads_pairDW rfl rfl (by rintro ⟨⟩ <;> rfl) (by rintro ⟨⟩ <;> rfl) h
  case addRmReg | adcRmReg | subRmReg | sbbRmReg | andRmReg | orRmReg | xorRmReg =>
    exact bodyReads_pairDW rfl rfl (by rintro ⟨⟩ <;> rfl) (by rintro ⟨⟩ <;> rfl) (Bool.and_eq_true .. ▸ h).1
  case testRmReg => exact bodyReads_pairW rfl rfl (by rintro ⟨⟩ <;> rfl) h
  case xchgRmReg => exact bodyReads_pairW rfl rfl (by rintro ⟨⟩ <;> rfl) (Bool.and_eq_true .. ▸ h).1
  case movRmImm | testRmImm =>
    exact bodyReads_extImm rfl rfl (by rintro ⟨⟩ <;> exact ⟨_, rfl, rfl⟩) h
  case addRmImm | adcRmImm | subRmImm | sbbRmImm =>
    exact bodyReads_immGroup rfl rfl ⟨_, rfl, rfl⟩ ⟨_, rfl, rfl⟩ ⟨_, rfl, rfl⟩ (Bool.and_eq_true .. ▸ h).1
  case cmpRmImm => exact bodyReads_immGroup rfl rfl ⟨_, rfl, rfl⟩ ⟨_, rfl, rfl⟩ ⟨_, rfl, rfl⟩ h
  case andRmImm | orRmImm | xorRmImm =>
    exact bodyReads_logicGroup rfl rfl (by rintro ⟨⟩ <;> exact ⟨_, rfl, rfl⟩) (Bool.and_eq_true .. ▸ h).1
  case addAccImm | adcAccImm | subAccImm | sbbAccImm | cmpAccImm | andAccImm | testAccImm | orAccImm | xorAccImm =>
    exact bodyReads_acc rfl rfl rfl
  case incRm | decRm | neg | not =>
    exact bodyReads_ext rfl rfl (by rintro ⟨⟩ <;> exact ⟨_, rfl, rfl⟩) (Bool.and_eq_true .. ▸ h).1
  case mul | imul | div | idiv => exact bodyReads_ext rfl rfl (by rintro ⟨⟩ <;> exact ⟨_, rfl, rfl⟩) h
  case shl op c | shr op c | sar op c | rol op c | ror op c | rcl op c | rcr op c =>
    exact bodyReads_shift rfl rfl (by cases c <;> rintro ⟨⟩ <;> exact ⟨_, rfl, rfl⟩) h
  case movSregRm s _ => cases s <;> exact bodyReads_rm (size := some .word) rfl rfl ⟨_, rfl, rfl⟩ h
  case movRmSreg _ s =>
    exact bodyReads_rm (size := some .word) (f := fun op => .movRmSreg op s) rfl rfl
      (by cases s <;> exact ⟨_, rfl, rfl⟩) h
  case pushRm | popRm | callNearInd | jmpNearInd => exact bodyReads_rm (size := some .word) rfl rfl ⟨_, rfl, rfl⟩ h
  case lea r _ | lds r _ | les r _ => exact bodyReads_memOnly rfl rfl (by cases r <;> exact ⟨_, rfl, rfl⟩) h
  case callFarInd | jmpFarInd => exact bodyReads_memOnly rfl rfl ⟨_, rfl, rfl⟩ h
  case movAccMem w ea | movMemAcc w ea => exact bodyReads_accMem rfl rfl (by cases w <;> rfl) h
  case movRegImm op imm =>
    obtain ⟨hi, hr⟩ := Bool.and_eq_true .. ▸ h
    obtain ⟨ho, v, rfl⟩ | ⟨ho, v, rfl⟩ := isAt_of_immW hi
    · cases op with
      | reg8 r => exact bodyReads_byte (f := fun v => .movRegImm (.reg8 r) (.b v)) rfl (by cases r <;> rfl)
      | reg16 => cases ho
      | mem => cases hr
    · cases op with
      | reg16 r => exact bodyReads_word (f := fun v => .movRegImm (.reg16 r) (.w v)) rfl (by cases r <;> rfl)
      | reg8 => cases ho
      | mem => cases hr
  case esc c op =>
    have hx : ExtRow (0xD8 ||| (c.extractLsb' 3 3).setWidth 8) (c.extractLsb' 0 3)
        (.rm none fun op => .esc (c.extractLsb' 3 3 ++ c.extractLsb' 0 3) op) := ⟨_, firstByte_esc _, rfl⟩
    rw [esc_opcode_append] at hx
    exact bodyReads_rm rfl rfl hx h
  case unknown b => exact bodyReads_op rfl (firstByte_notUsed (mem_notUsedBytes h))
  case pushReg r | popReg r | xchgAccReg r | incReg r | decReg r => exact bodyReads_op rfl (by cases r <;> rfl)
  case pushSreg s => exact bodyReads_op rfl (by cases s <;> rfl)
  case popSreg s =>
    cases s with
    | cs => cases h
    | ds | es | ss => exact bodyReads_op rfl rfl
  case inVar w | outVar w | movs w _ | cmps w _ | scas w _ | lods w _ | stos w _ =>
    exact bodyReads_op rfl (by cases w <;> rfl)
  case inFixed w _ | outFixed w _ => exact bodyReads_byte rfl (by cases w <;> rfl)
  case aam | aad => exact bodyReads_op0A rfl rfl
  case callNear | jmpNear | retNearImm | retFarImm => exact bodyReads_word rfl rfl
  case callFar | jmpFar => exact bodyReads_far rfl rfl
  case jmpShort | je | jl | jle | jb | jbe | jp | jo | js | jne | jnl | jnle | jnb | jnbe | jnp | jno | jns | loop
    | loopz | loopnz | jcxz | int => exact bodyReads_byte rfl rfl
  case reserved | seg | lock | repne | rep => cases h
  all_goals exact bodyReads_op rfl rfl

end Sys2Proof
end

section
/-! PROOFS. The prefixes of a record around its body: the context they make pending, and what the check at the end of the
body answers (40_decoder_prefixes R142 to R153). -/

namespace Sys2Proof

/-! ### The context a record's prefix bytes make pending -/

/-- The context after the prefix bytes of `i` have been read in `c`. -/
def Ctx.over (c : Ctx) (i : Instr) : Ctx :=
  Ctx.mk (i.segOverride.or c.seg) (i.isLocked || c.lock) (if i.repField = .none then c.rep else i.repField)

/-- No prefix class of `i` is pending in `c`. -/
structure Ctx.Free (c : Ctx) (i : Instr) : Prop where
  seg  : i.segOverride ≠ none → c.seg = none
  lock : i.isLocked = true → c.lock = false
  rep  : i.repField ≠ .none → c.rep = .none

theorem Ctx.empty_free (i : Instr) : Ctx.empty.Free i := ⟨fun _ => rfl, fun _ => rfl, fun _ => rfl⟩

section
variable (lk : Lockable) (c : Ctx) (bs : List Byte)

theorem decodeFrom_of_lock {b : Byte} (hb : firstByte b = .lock) (h : c.lock = false) :
    decodeFrom lk c (b :: bs) = decodeFrom lk (Ctx.mk c.seg true c.rep) bs := by
  simp [decodeFrom, hb, h]

theorem decodeFrom_of_seg {b : Byte} {s : Sreg} (hb : firstByte b = .seg s) (h : c.seg = none) :
    decodeFrom lk c (b :: bs) = decodeFrom lk (Ctx.mk (some s) c.lock c.rep) bs := by
  simp [decodeFrom, hb, h]

theorem decodeFrom_of_rep {b : Byte} {r : Rep} (hb : firstByte b = .rep r) (h : c.rep = .none) :
    decodeFrom lk c (b :: bs) = decodeFrom lk (Ctx.mk c.seg c.lock r) bs := by
  simp [decodeFrom, hb, h]

theorem decodeFrom_repBytes (r : Rep) (h : r ≠ .none → c.rep = .none) :
    decodeFrom lk c (r.bytes ++ bs) = decodeFrom lk (Ctx.mk c.seg c.lock (if r = .none then c.rep else r)) bs := by
  cases r with
  | none => rfl
  | rep => exact decodeFrom_of_rep lk c bs firstByte_repByte (h nofun)
  | repne => exact decodeFrom_of_rep lk c bs firstByte_repneByte (h nofun)

/-- The loop reads the prefix bytes of a record one after another. -/
theorem decodeFrom_prefixBytes {i : Instr} (h : c.Free i) :
    decodeFrom lk c (i.prefixBytes ++ bs) = decodeFrom lk (c.over i) bs := by
  obtain ⟨hs, hl, hr⟩ := h
  have lock : ∀ tail, decodeFrom lk c ((if i.isLocked then [0xF0] else []) ++ tail) =
      decodeFrom lk (Ctx.mk c.seg (i.isLocked || c.lock) c.rep) tail := fun tail => by
    cases hi : i.isLocked with
    | false => rfl
    | true => exact decodeFrom_of_lock lk c tail firstByte_lockByte (hl hi)
  have seg : ∀ l r tail, decodeFrom lk (Ctx.mk c.seg l r) ((i.segOverride.elim [] fun s => [s.overrideByte]) ++ tail) =
      decodeFrom lk (Ctx.mk (i.segOverride.or c.seg) l r) tail := fun l r tail => by
    cases hi : i.segOverride with
    | none => rfl
    | some s => exact decodeFrom_of_seg lk _ tail (firstByte_overrideByte s) (hs (by simp [hi]))
  rw [Instr.prefixBytes, List.append_assoc, List.append_assoc, lock, seg]
  exact decodeFrom_repBytes lk _ bs i.repField hr

end

/-- The bytes of a record: its prefixes and its body. -/
theorem encode_eq {lk : Lockable} {i : Instr} (h : WellFormed lk i = true) :
    encode i = i.prefixBytes ++ encodeBody i := by
  cases i
  case seg | lock | repne | rep => cases h
  all_goals rfl

/-- Decoding a record behind pending prefixes: its body's record goes to the check with everything pending. -/
theorem decodeFrom_encode {lk : Lockable} {c : Ctx} {i : Instr} (hw : WellFormed lk i = true) (hc : c.Free i)
    (hs : ∀ ea, i.mem? = some ea → ea.seg = (c.over i).seg) (rest : List Byte) :
    decodeFrom lk c (encode i ++ rest) = ((c.over i).finish lk i.unprefixed).map (·, rest) := by
  obtain ⟨b, f, tail, he, hb, hd⟩ := bodyReads_unprefixed hw
  rw [encode_eq hw, List.append_assoc, decodeFrom_prefixBytes lk c _ hc, he, List.cons_append, decodeFrom]
  simp only [hb, hd _ rest hs]
  cases (c.over i).finish lk i.unprefixed <;> rfl

/-! ### The check at the end of the body -/

/-- The lock of a record is consumed from its body. -/
theorem Ctx.takeLock_unprefixed {lk : Lockable} {c : Ctx} {i : Instr} (hw : WellFormed lk i = true)
    (hl : c.lock = i.isLocked) :
    c.takeLock lk i.unprefixed = .ok (if i.isLocked then i else i.unprefixed) := by
  cases hi : i.isLocked with
  | false => simp [Ctx.takeLock, hl, hi]
  | true =>
    obtain ⟨h, -⟩ := Instr.consumeLock_unprefixed hw hi
    simp [Ctx.takeLock, hl, hi, h]

theorem Ctx.drain_of_rep_none {c : Ctx} {i : Instr} (hs : c.seg ≠ none → i.mem? ≠ none) (hr : c.rep = .none) :
    c.drain i = .ok i := by
  cases hc : c.seg with
  | none => simp [Ctx.drain, hc, hr]
  | some s => simp [Ctx.drain, hc, hr, hs (by simp [hc])]

theorem Ctx.drain_of_override {c : Ctx} {i : Instr} (hs : c.seg ≠ none) (hm : i.mem? = none) :
    c.drain i = .error .unconsumedPrefix := by
  simp [Ctx.drain, hm, Option.isSome_iff_ne_none.2 hs]

theorem Ctx.drain_of_consumeRep_none {c : Ctx} {i : Instr} (hr : c.rep ≠ .none) (h : i.consumeRep c.rep = none) :
    c.drain i = .error .unconsumedPrefix := by
  simp [Ctx.drain, hr, h]

theorem Ctx.drain_of_consumeRep {c : Ctx} {i j : Instr} (hs : c.seg = none) (hr : c.rep ≠ .none)
    (h : i.consumeRep c.rep = some j) : c.drain i = .ok j := by
  simp [Ctx.drain, hs, hr, h]

theorem Instr.mem?_ne_none_of_segOverride {i : Instr} (h : i.segOverride ≠ none) : i.mem? ≠ none := fun hm =>
  h (by rw [Instr.segOverride, hm]; rfl)

/-- A string record has no memory operand of its own, so no override (40_decoder_prefixes R147). -/
theorem Instr.segOverride_of_repField {i : Instr} (h : i.repField ≠ .none) : i.segOverride = none := by
  cases i
  case movs | cmps | scas | lods | stos => rfl
  all_goals exact absurd rfl h

theorem Instr.unprefixed_mem? (i : Instr) : i.unprefixed.mem? = i.mem? := by cases i <;> rfl

/-- The prefixes of a record are folded back into its body. -/
theorem Ctx.finish_unprefixed {lk : Lockable} {i : Instr} (hw : WellFormed lk i = true) :
    (Ctx.empty.over i).finish lk i.unprefixed = .ok i := by
  have hl : (Ctx.empty.over i).lock = i.isLocked := Bool.or_false _
  have hs : (Ctx.empty.over i).seg = i.segOverride := Option.or_none
  have hr : (Ctx.empty.over i).rep = i.repField := by simp [Ctx.over, Ctx.empty, eq_comm]
  rw [Ctx.finish_eq, Ctx.takeLock_unprefixed hw hl]
  change Ctx.drain _ _ = _
  by_cases hrep : i.repField = .none
  case pos =>
    have hi : (if i.isLocked then i else i.unprefixed) = i := by
      split
      case isTrue => rfl
      case isFalse hl => exact Instr.unprefixed_eq_self (by simpa using hl) hrep
    rw [hi]
    exact Ctx.drain_of_rep_none (hs ▸ Instr.mem?_ne_none_of_segOverride) (hr.trans hrep)
  case neg =>
    obtain ⟨hc, hul⟩ := Instr.consumeRep_unprefixed hrep
    rw [hul]
    exact Ctx.drain_of_consumeRep (hs.trans (Instr.segOverride_of_repField hrep)) (hr ▸ hrep) (hr ▸ hc)

theorem decodeOne_encode {lk : Lockable} {i : Instr} (hw : WellFormed lk i = true) (rest : List Byte) :
    decodeOne lk (encode i ++ rest) = .ok (i, rest) := by
  have hs : ∀ ea, i.mem? = some ea → ea.seg = (Ctx.empty.over i).seg := fun ea he => by
    simp [Ctx.over, Ctx.empty, Instr.segOverride, he]
  rw [decodeOne, decodeFrom_encode hw (Ctx.empty_free i) hs, Ctx.finish_unprefixed hw]
  rfl

end Sys2Proof

namespace Sys2Proof.Machine

/-- Settles O1: the prefix bytes make the context pending that the check folds back into the record of the body. -/
theorem decodeOfEncodeIsTheRecord : Obligations.DecodeOfEncodeIsTheRecord :=
  fun _ _ rest hw => decodeOne_encode hw rest

end Sys2Proof.Machine
end

section
/-! PROOFS. The decoder reads no further than the record it answers, and every shorter beginning of those bytes is
`Truncated` (60_exceptions R432, 40_decoder_prefixes R156). -/

namespace Sys2Proof

/-! ### Readers that stop where their answer ends -/

/-- Whatever the reader answers it reads off a beginning of the bytes, whatever follows; off less it is `Truncated`. -/
def StopsAtEnd {α : Type} (rd : List Byte → Except Malformed (α × List Byte)) : Prop :=
  ∀ bs a rest, rd bs = .ok (a, rest) →
    ∃ pre, bs = pre ++ rest ∧ (∀ more, rd (pre ++ more) = .ok (a, more)) ∧
      ∀ n, n < pre.length → rd (pre.take n) = .error .truncated

namespace StopsAtEnd

variable {α β : Type}

theorem pure (a : α) : StopsAtEnd fun bs => .ok (a, bs) := by
  intro bs a' rest h
  cases h
  exact ⟨[], rfl, fun _ => rfl, nofun⟩

theorem error (e : Malformed) : StopsAtEnd fun _ => (.error e : Except Malformed (α × List Byte)) := nofun

theorem bind {rd : List Byte → Except Malformed (α × List Byte)}
    {g : α → List Byte → Except Malformed (β × List Byte)} (h : StopsAtEnd rd) (k : ∀ a, StopsAtEnd (g a)) :
    StopsAtEnd fun bs => rd bs >>= fun p => g p.1 p.2 := by
  intro bs b rest hb
  obtain ⟨⟨a, mid⟩, ha, hg⟩ := bind_eq_ok_iff.1 hb
  obtain ⟨pre, rfl, more, short⟩ := h bs a mid ha
  obtain ⟨pre', rfl, more', short'⟩ := k a mid b rest hg
  refine ⟨pre ++ pre', (List.append_assoc ..).symm, fun bs' => ?_, fun n hn => ?_⟩
  · rw [List.append_assoc]
    exact bind_eq_ok_iff.2 ⟨_, more _, more' _⟩
  · refine bind_eq_error_iff.2 ?_
    by_cases hlt : n < pre.length
    · rw [List.take_append_of_le_length (Nat.le_of_lt hlt)]
      exact .inl (short n hlt)
    · rw [List.take_append, List.take_of_length_le (Nat.le_of_not_lt hlt)]
      exact .inr ⟨_, more _, short' _ (by simp only [List.length_append] at hn; omega)⟩

theorem map {rd : List Byte → Except Malformed (α × List Byte)} (h : StopsAtEnd rd) (f : α → β) :
    StopsAtEnd fun bs => rd bs >>= fun p => .ok (f p.1, p.2) :=
  h.bind fun a => pure (f a)

end StopsAtEnd

theorem stopsAtEnd_readByte : StopsAtEnd readByte := by
  intro bs b rest h
  cases bs with
  | nil => cases h
  | cons b bs =>
    cases h
    refine ⟨[b], rfl, fun _ => rfl, fun n hn => ?_⟩
    obtain rfl := Nat.lt_one_iff.1 hn
    rfl

theorem stopsAtEnd_readWord : StopsAtEnd readWord := by
  intro bs v rest h
  match bs, h with
  | lo :: hi :: bs, h =>
    cases h
    refine ⟨[lo, hi], rfl, fun _ => rfl, fun n hn => ?_⟩
    match n, hn with
    | 0, _ => rfl
    | 1, _ => rfl

theorem stopsAtEnd_decodeDisp (mod : BitVec 2) (rm : BitVec 3) : StopsAtEnd (decodeDisp mod rm) := by
  by_cases h0 : mod = 0 ∧ rm ≠ 6
  · rw [show decodeDisp mod rm = fun bs => .ok (.none, bs) from funext fun _ => if_pos h0]
    exact .pure _
  · by_cases h1 : mod = 1
    · have e : decodeDisp mod rm = fun bs => readByte bs >>= fun p => .ok (.d8 p.1, p.2) := funext fun bs => by
        unfold decodeDisp
        rw [if_neg h0, if_pos h1]
        cases bs <;> rfl
      rw [e]
      exact stopsAtEnd_readByte.map _
    · have e : decodeDisp mod rm = fun bs => readWord bs >>= fun p => .ok (.d16 p.1, p.2) := funext fun bs => by
        unfold decodeDisp
        rw [if_neg h0, if_neg h1]
        match bs with
        | [] | [_] | _ :: _ :: _ => rfl
      rw [e]
      exact stopsAtEnd_readWord.map _

section
variable (seg : Option Sreg) (size : Option Width) (m : Byte)

theorem stopsAtEnd_decodeEa : StopsAtEnd (decodeEa seg size m) := by
  have e : decodeEa seg size m = fun bs =>
      decodeDisp (ModRM.mod m) (ModRM.rm m) bs >>= fun p =>
        .ok (Ea.mk (EaKind.ofCode (ModRM.mod m) (ModRM.rm m)) p.1 seg size, p.2) := funext fun bs => by
    rw [decodeEa]
    cases decodeDisp (ModRM.mod m) (ModRM.rm m) bs <;> rfl
  rw [e]
  exact (stopsAtEnd_decodeDisp _ _).map fun d => Ea.mk (EaKind.ofCode (ModRM.mod m) (ModRM.rm m)) d seg size

theorem stopsAtEnd_decodeRm : StopsAtEnd (decodeRm seg size m) := by
  by_cases hm : ModRM.mod m = 3
  · have e : decodeRm seg size m = fun bs => .ok (regOperand (size.getD .word) (ModRM.rm m), bs) :=
      funext fun _ => if_pos hm
    rw [e]
    exact .pure _
  · have e : decodeRm seg size m = fun bs =>
        decodeEa seg size m bs >>= fun p => .ok (.mem p.1, p.2) := funext fun bs => by
      rw [decodeRm, if_neg hm]
      cases decodeEa seg size m bs <;> rfl
    rw [e]
    exact (stopsAtEnd_decodeEa seg size m).map _

theorem stopsAtEnd_decodeExt (x : Ext) : StopsAtEnd fun bs => decodeExt seg m bs x := by
  cases x with
  | reserved => exact .error _
  | rm size f => exact (stopsAtEnd_decodeRm seg size m).map f
  | rmImm8 w f => exact (stopsAtEnd_decodeRm seg (some w) m).bind fun op => stopsAtEnd_readByte.map (f op)
  | rmImm16 f => exact (stopsAtEnd_decodeRm seg (some .word) m).bind fun op => stopsAtEnd_readWord.map (f op)
  | memOnly f =>
    simp only [decodeExt]
    split
    · exact .error _
    · exact (stopsAtEnd_decodeEa seg none m).map f

theorem stopsAtEnd_decodeBody (f : Format) : StopsAtEnd (decodeBody seg f) := by
  cases f with
  | op i => exact .pure i
  | byte g => exact stopsAtEnd_readByte.map g
  | word g => exact stopsAtEnd_readWord.map g
  | far g => exact stopsAtEnd_readWord.bind fun off => stopsAtEnd_readWord.map fun sg => g sg off
  | op0A i =>
    refine stopsAtEnd_readByte.bind
      (g := fun b rest => if b = 0x0A then .ok (i, rest) else .error .reservedEncoding) fun b => ?_
    by_cases hb : b = 0x0A
    · simpa only [hb, if_true] using StopsAtEnd.pure i
    · simpa only [hb, if_false] using StopsAtEnd.error _
  | accMem w g => exact stopsAtEnd_readWord.map fun v => g (Ea.mk .direct (.d16 v) seg (some w))
  | modrm sel =>
    exact stopsAtEnd_readByte.bind (g := fun m rest => decodeExt seg m rest (sel (ModRM.reg m)))
      fun m => stopsAtEnd_decodeExt seg m (sel (ModRM.reg m))

end

/-- A reader of one byte more. -/
theorem StopsAtEnd.cons {α : Type} {rd rd' : List Byte → Except Malformed (α × List Byte)} {b : Byte}
    (h0 : rd' [] = .error .truncated) (h1 : ∀ bs, rd' (b :: bs) = rd bs) {bs rest : List Byte} {a : α}
    (h : ∃ pre, bs = pre ++ rest ∧ (∀ more, rd (pre ++ more) = .ok (a, more)) ∧
      ∀ n, n < pre.length → rd (pre.take n) = .error .truncated) :
    ∃ pre, b :: bs = pre ++ rest ∧ (∀ more, rd' (pre ++ more) = .ok (a, more)) ∧
      ∀ n, n < pre.length → rd' (pre.take n) = .error .truncated := by
  obtain ⟨pre, rfl, more, short⟩ := h
  refine ⟨b :: pre, rfl, fun bs' => (h1 _).trans (more bs'), fun n hn => ?_⟩
  cases n with
  | zero => exact h0
  | succ n => exact (h1 _).trans (short n (Nat.lt_of_succ_lt_succ hn))

/-- The body and its check, as one reader. -/
def decodeChecked (lk : Lockable) (c : Ctx) (f : Format) (bs : List Byte) : Except Malformed (Instr × List Byte) :=
  decodeBody c.seg f bs >>= fun p => c.finish lk p.1 >>= fun j => .ok (j, p.2)

theorem decodeFrom_body (lk : Lockable) (c : Ctx) {b : Byte} {f : Format} (hf : firstByte b = .body f)
    (bs : List Byte) : decodeFrom lk c (b :: bs) = decodeChecked lk c f bs := by
  rw [decodeFrom]
  simp only [hf, decodeChecked]
  cases decodeBody c.seg f bs with
  | error e => rfl
  | ok p =>
    simp only [bind, Except.bind]
    cases c.finish lk p.1 <;> rfl

theorem stopsAtEnd_decodeChecked (lk : Lockable) (c : Ctx) (f : Format) : StopsAtEnd (decodeChecked lk c f) := by
  refine (stopsAtEnd_decodeBody c.seg f).bind (g := fun i rest => c.finish lk i >>= fun j => .ok (j, rest)) fun i => ?_
  cases c.finish lk i with
  | error e => exact StopsAtEnd.error e
  | ok j => exact StopsAtEnd.pure j

/-- The decoder, over the prefix bytes. -/
theorem stopsAtEnd_decodeFrom (lk : Lockable) (c : Ctx) : StopsAtEnd (decodeFrom lk c) := by
  intro bs j rest h
  induction bs generalizing c with
  | nil => cases h
  | cons b bs ih =>
    cases hf : firstByte b with
    | seg s =>
      by_cases hc : c.seg = none
      · have e := fun bs => decodeFrom_of_seg lk c bs hf hc
        exact StopsAtEnd.cons rfl e (ih _ ((e bs).symm.trans h))
      · rw [decodeFrom_seg_pending hf hc] at h; cases h
    | lock =>
      by_cases hc : c.lock = false
      · have e := fun bs => decodeFrom_of_lock lk c bs hf hc
        exact StopsAtEnd.cons rfl e (ih _ ((e bs).symm.trans h))
      · rw [decodeFrom_lock_pending hf (by simpa using hc)] at h; cases h
    | rep r =>
      by_cases hc : c.rep = .none
      · have e := fun bs => decodeFrom_of_rep lk c bs hf hc
        exact StopsAtEnd.cons rfl e (ih _ ((e bs).symm.trans h))
      · rw [decodeFrom_rep_pending hf hc] at h; cases h
    | body f =>
      have e := decodeFrom_body lk c hf
      exact StopsAtEnd.cons rfl e (stopsAtEnd_decodeChecked lk c f _ _ _ ((e bs).symm.trans h))

end Sys2Proof

namespace Sys2Proof.Machine

/-- Settles O3: the bytes of a record are exactly what the decoder reads to answer it. -/
theorem properBeginningIsTruncated : Obligations.ProperBeginningIsTruncated := by
  intro lk i n hw hn
  obtain ⟨pre, hpre, -, short⟩ := stopsAtEnd_decodeFrom lk Ctx.empty _ i [] (decodeOne_encode hw [])
  obtain rfl : encode i = pre := List.append_cancel_right hpre
  exact short n hn

end Sys2Proof.Machine
end

section
/-! PROOFS. The sweep of the program store and the step that looks a record up in it (10_state R34 to R37). -/

namespace Sys2Proof

/-! ### Lengths -/

/-- A decoded record is at least a byte long and takes exactly its `byteLength` off the bytes (30_encoding R94). -/
theorem decodeOne_consumes {lk : Lockable} {bs rest : List Byte} {i : Instr} (h : decodeOne lk bs = .ok (i, rest)) :
    1 ≤ i.byteLength ∧ Consumed bs rest i.byteLength := by
  obtain ⟨-, n, hn, hlen, hc⟩ := decodeFrom_sound h
  obtain rfl : i.byteLength = n := by simpa [Ctx.pending, Ctx.empty] using hlen
  exact ⟨hn, hc⟩

theorem length_encode {lk : Lockable} {i : Instr} (hw : WellFormed lk i = true) :
    (encode i).length = i.byteLength := by
  obtain ⟨-, hc⟩ := decodeOne_consumes (decodeOne_encode hw [])
  simpa using hc.length_eq

theorem one_le_byteLength {lk : Lockable} {i : Instr} (hw : WellFormed lk i = true) : 1 ≤ i.byteLength :=
  (decodeOne_consumes (decodeOne_encode hw [])).1

/-- The bytes records take, one after another. -/
def totalLength (is : List Instr) : Nat := (is.map Instr.byteLength).sum

@[simp] theorem totalLength_nil : totalLength [] = 0 := rfl
@[simp] theorem totalLength_cons (i : Instr) (is : List Instr) :
    totalLength (i :: is) = i.byteLength + totalLength is := List.sum_cons

/-! ### The sweep record by record -/

theorem sweepFrom_cons {lk : Lockable} {fuel off : Nat} {bs rest : List Byte} {i : Instr}
    (h : decodeOne lk bs = .ok (i, rest)) :
    sweepFrom lk (fuel + 1) off bs = (sweepFrom lk fuel (off + i.byteLength) rest).map ((off, i) :: ·) := by
  obtain ⟨hpos, hc⟩ := decodeOne_consumes h
  have hlen := hc.length_eq
  cases bs with
  | nil => simp at hlen; omega
  | cons b bs =>
    have hoff : off + ((b :: bs).length - rest.length) = off + i.byteLength := by omega
    simp only [sweepFrom, h, hoff]
    cases sweepFrom lk fuel (off + i.byteLength) rest <;> rfl

/-- A sweep that succeeds is at the end, or has decoded a record and goes on behind it. -/
theorem sweepFrom_eq_ok {lk : Lockable} {fuel off : Nat} {bs : List Byte} {m : List (Nat × Instr)}
    (hf : bs.length ≤ fuel) (h : sweepFrom lk fuel off bs = .ok m) :
    bs = [] ∧ m = [] ∨ ∃ fuel' i rest m', fuel = fuel' + 1 ∧ decodeOne lk bs = .ok (i, rest) ∧
      sweepFrom lk fuel' (off + i.byteLength) rest = .ok m' ∧ m = (off, i) :: m' := by
  cases bs with
  | nil =>
    cases fuel <;> cases h <;> exact .inl ⟨rfl, rfl⟩
  | cons b bs =>
    cases fuel with
    | zero => simp at hf
    | succ fuel =>
      cases hd : decodeOne lk (b :: bs) with
      | error e => simp [sweepFrom, hd] at h
      | ok p =>
        rw [sweepFrom_cons hd] at h
        cases hs : sweepFrom lk fuel (off + p.1.byteLength) p.2 with
        | error e => rw [hs] at h; cases h
        | ok m' => rw [hs] at h; cases h; exact .inr ⟨fuel, p.1, p.2, m', rfl, rfl, hs, rfl⟩

/-- The entries of a sweep tile the bytes from `off` on. -/
theorem sweepFrom_tiles {lk : Lockable} {fuel off : Nat} {bs : List Byte} {m : List (Nat × Instr)}
    (hf : bs.length ≤ fuel) (h : sweepFrom lk fuel off bs = .ok m) :
    totalLength (m.map Prod.snd) = bs.length ∧ ∀ (k : Nat) (e : Nat × Instr), m[k]? = some e →
      e.1 = off + totalLength ((m.take k).map Prod.snd) ∧
        ∃ rest, decodeOne lk (bs.drop (totalLength ((m.take k).map Prod.snd))) = .ok (e.2, rest) := by
  induction fuel generalizing off bs m with
  | zero =>
    obtain rfl : bs = [] := List.length_eq_zero_iff.1 (Nat.le_zero.1 hf)
    cases h
    exact ⟨rfl, nofun⟩
  | succ fuel ih =>
    obtain ⟨rfl, rfl⟩ | ⟨_, i, rest, m', hfuel, hd, hs, rfl⟩ := sweepFrom_eq_ok hf h
    · exact ⟨rfl, nofun⟩
    · cases hfuel
      obtain ⟨hpos, hc⟩ := decodeOne_consumes hd
      have hlen := hc.length_eq
      obtain ⟨hsum, hat⟩ := ih (by omega) hs
      refine ⟨by simp only [List.map_cons, totalLength_cons]; omega, fun k e he => ?_⟩
      cases k with
      | zero => cases he; exact ⟨rfl, rest, hd⟩
      | succ k =>
        obtain ⟨hoff, rest', hd'⟩ := hat k e he
        simp only [List.take_succ_cons, List.map_cons, totalLength_cons]
        refine ⟨by omega, rest', ?_⟩
        rwa [← List.drop_drop, ← hc.eq_drop]

/-! ### A program laid out from records -/

/-- The map of records laid out from `off` on. -/
def layout : Nat → List Instr → List (Nat × Instr)
  | _, [] => []
  | off, i :: is => (off, i) :: layout (off + i.byteLength) is

theorem sweepFrom_flatMap_encode {lk : Lockable} {is : List Instr} (hw : ∀ i ∈ is, WellFormed lk i = true)
    {fuel off : Nat} (hf : (is.flatMap encode).length ≤ fuel) :
    sweepFrom lk fuel off (is.flatMap encode) = .ok (layout off is) := by
  induction is generalizing fuel off with
  | nil => cases fuel <;> rfl
  | cons i is ih =>
    have hi := hw i (.head is)
    have hlen := length_encode hi
    have hpos := one_le_byteLength hi
    rw [List.flatMap_cons, List.length_append] at hf
    obtain ⟨fuel, rfl⟩ : ∃ n, fuel = n + 1 := ⟨fuel - 1, by omega⟩
    rw [List.flatMap_cons, sweepFrom_cons (decodeOne_encode hi _), ih (fun j hj => hw j (.tail _ hj)) (by omega)]
    rfl

theorem sweep_flatMap_encode {lk : Lockable} {is : List Instr} (hw : ∀ i ∈ is, WellFormed lk i = true) :
    sweep lk (is.flatMap encode) = .ok (layout 0 is) := sweepFrom_flatMap_encode hw le_rfl

/-- The map as the list of the records with the sums of the lengths before them. -/
theorem layout_eq_map_zipIdx (off : Nat) (is : List Instr) :
    layout off is = is.zipIdx.map fun e => (off + totalLength (is.take e.2), e.1) := by
  induction is generalizing off with
  | nil => rfl
  | cons i is ih =>
    have e : ∀ x ∈ is.zipIdx, (off + totalLength ((i :: is).take (x.2 + 1)), x.1) =
        (off + i.byteLength + totalLength (is.take x.2), x.1) := fun x _ => by
      rw [List.take_succ_cons, totalLength_cons, Nat.add_assoc]
    simp only [layout, ih, List.zipIdx_cons, List.map_cons, List.take_zero, totalLength_nil, Nat.add_zero,
      List.zipIdx_succ, List.map_map, Nat.zero_add]
    exact congrArg _ (List.map_congr_left e).symm

/-- The record at the end of the ones before it is the one filed there. -/
theorem mapLookup_layout {before after : List Instr} {i : Instr} (hpos : ∀ j ∈ before, 1 ≤ j.byteLength) (off : Nat) :
    mapLookup (layout off (before ++ i :: after)) (off + totalLength before) = some i := by
  induction before generalizing off with
  | nil => simp [layout, mapLookup]
  | cons j before ih =>
    have hj := hpos j (.head before)
    have hne : (off == off + totalLength (j :: before)) = false := by simp; omega
    have hrest := ih (fun x hx => hpos x (.tail _ hx)) (off + j.byteLength)
    simp only [layout, mapLookup, List.cons_append, List.find?_cons, hne]
    rwa [totalLength_cons, ← Nat.add_assoc]

end Sys2Proof

namespace Sys2Proof.Machine

/-- Settles O4: the sweep from offset 0 tiles the whole program. -/
theorem sweepTilesTheProgram : Obligations.SweepTilesTheProgram := by
  intro lk p m h
  have total : ∀ l : List (Nat × Instr), (l.map fun e => e.2.byteLength).sum = totalLength (l.map Prod.snd) :=
    fun l => by rw [totalLength, List.map_map]; rfl
  obtain ⟨hsum, hat⟩ := sweepFrom_tiles le_rfl h
  refine ⟨(total m).trans hsum, fun k e he => ?_⟩
  obtain ⟨hoff, hd⟩ := hat k e he
  rw [Nat.zero_add] at hoff
  exact ⟨hoff.trans (total _).symm, hoff ▸ hd⟩

/-- Settles O5: the sweep of laid-out records is their layout from offset 0. -/
theorem sweepOfLaidOutRecords : Obligations.SweepOfLaidOutRecords := by
  intro lk is hw
  rw [sweep_flatMap_encode hw, layout_eq_map_zipIdx]
  simp only [Nat.zero_add]
  rfl

/-! ### A step of the running block -/

section
variable {s : State}

theorem step_of_fetch_error {f : Fault} (h : s.condition = .running) (hf : fetch s = .error f) :
    step s = .fault f := by
  simp only [step, h, hf, raise]

theorem step_of_fetch_none (h : s.condition = .running) (hf : fetch s = .ok none) :
    step s = .next { s with condition := .halted } := by
  simp only [step, h, hf]

theorem step_of_fetch_some {i : Instr} (h : s.condition = .running) (hf : fetch s = .ok (some i)) :
    step s = exec i s := by
  simp only [step, h, hf]

theorem fetch_of_sweep_error {e : Malformed} {start : Nat} (h : sweep s.cfg.lockable s.program = .error (e, start)) :
    fetch s = .error (.malformedEncoding e start) := by
  rw [fetch, h]

theorem fetch_of_sweep_ok {m : List (Nat × Instr)} (h : sweep s.cfg.lockable s.program = .ok m) :
    fetch s = .ok (mapLookup m s.ip.toNat) := by
  rw [fetch, h]

end

/-- Settles O11: the record filed under `ip` is the one fetched. -/
theorem stepRunsTheDecodedInstruction : Obligations.StepRunsTheDecodedInstruction :=
  fun _ _ _ hrun hsweep hlookup => step_of_fetch_some hrun ((fetch_of_sweep_ok hsweep).trans (congrArg _ hlookup))

/-- Settles O12: the sweep files the record under the sum of the lengths before it. -/
theorem stepRunsTheRecordAtIp : Obligations.StepRunsTheRecordAtIp := by
  intro s before after i hrun hw hprogram hip
  have hpos : ∀ j ∈ before, 1 ≤ j.byteLength := fun j hj => one_le_byteLength (hw j (List.mem_append_left _ hj))
  have hlookup := mapLookup_layout (i := i) (after := after) hpos 0
  rw [Nat.zero_add, totalLength, ← hip] at hlookup
  refine step_of_fetch_some hrun ?_
  rw [fetch_of_sweep_ok (hprogram ▸ sweep_flatMap_encode hw), hlookup]

/-- Settles O13: each end of a run is a branch of the step. -/
theorem endsOfARun : Obligations.EndsOfARun := by
  refine ⟨fun s e start hrun hsweep => ?decode, fun s m hrun hsweep hlookup => ?unmapped, fun s hs => ?stopped⟩
  case decode => exact step_of_fetch_error hrun (fetch_of_sweep_error hsweep)
  case unmapped => exact step_of_fetch_none hrun ((fetch_of_sweep_ok hsweep).trans (congrArg _ hlookup))
  case stopped =>
    rw [step]
    cases hc : s.condition with
    | running => exact absurd hc hs
    | halted | stuck => rfl

/-- Settles O15: the memory of reset is empty, and `boot` keeps the memory of `INIT`. -/
theorem invariantHoldsAtTheStart : Obligations.InvariantHoldsAtTheStart :=
  ⟨⟨reset_mem_wf, Nat.zero_le _⟩, fun _ _ hm hp => ⟨hm, hp⟩⟩

end Sys2Proof.Machine
end

section
/-! PROOFS. Prefixes against the body they stand before (40_decoder_prefixes R147 to R153), and words of the spec that
decode (R163 to R166). -/

namespace Sys2Proof

/-! ### What a kind consumes -/

theorem Instr.not_isLocked_of_consumeLock {lk : Lockable} {i : Instr} (h : i.consumeLock lk = none) :
    i.isLocked = false ∧ i.unprefixed.consumeLock lk = none := by
  cases i
  case xchgRmReg | addRmReg | adcRmReg | subRmReg | sbbRmReg | andRmReg | orRmReg | xorRmReg | addRmImm | adcRmImm
    | subRmImm | sbbRmImm | andRmImm | orRmImm | xorRmImm | incRm | decRm | neg | not => cases h
  all_goals exact ⟨rfl, rfl⟩

theorem Instr.repField_of_consumeLock {lk : Lockable} {i : Instr} (h : i.consumeLock lk ≠ none) :
    i.repField = .none := by
  cases i
  case movs | cmps | scas | lods | stos => exact absurd rfl h
  all_goals rfl

/-- A kind that is no string consumes neither repeat, locked or not. -/
theorem Instr.consumeRep_eq_none {i : Instr} (h : i.consumeRep .rep = none) (r : Rep) :
    i.repField = .none ∧ i.consumeRep r = none ∧ i.unprefixed.consumeRep r = none := by
  cases i
  case movs | cmps | scas | lods | stos => cases h
  all_goals exact ⟨rfl, rfl, rfl⟩

theorem Ctx.takeLock_of_none {lk : Lockable} {c : Ctx} {i : Instr} (hl : c.lock = true)
    (h : i.consumeLock lk = none) : c.takeLock lk i = .error .unconsumedPrefix := by
  simp [Ctx.takeLock, hl, h]

theorem Ctx.takeLock_of_false {lk : Lockable} {c : Ctx} {i j : Instr} (hl : c.lock = true)
    (h : i.consumeLock lk = some (false, j)) : c.takeLock lk i = .error .lockNotPermitted := by
  simp [Ctx.takeLock, hl, h]

theorem Ctx.takeLock_of_true {lk : Lockable} {c : Ctx} {i j : Instr} (hl : c.lock = true)
    (h : i.consumeLock lk = some (true, j)) : c.takeLock lk i = .ok j := by
  simp [Ctx.takeLock, hl, h]

/-! ### A record behind one prefix byte -/

section
variable {lk : Lockable} {i : Instr} (hw : WellFormed lk i = true) (rest : List Byte)
include hw

/-- An override before a record that takes none of its own: everything but the override check is as without it. -/
theorem decodeOne_override_unconsumed (s : Sreg) (hm : i.mem? = none) :
    decodeOne lk (s.overrideByte :: (encode i ++ rest)) = .error .unconsumedPrefix := by
  have hs : i.segOverride = none := by rw [Instr.segOverride, hm]; rfl
  rw [decodeOne, decodeFrom_of_seg lk _ _ (firstByte_overrideByte s) rfl,
    decodeFrom_encode hw ⟨fun h => absurd hs h, fun _ => rfl, fun _ => rfl⟩ (by simp [hm]), Ctx.finish_eq,
    Ctx.takeLock_unprefixed hw (Bool.or_false _)]
  have hd : (if i.isLocked then i else i.unprefixed).mem? = none := by
    split
    · exact hm
    · rw [Instr.unprefixed_mem?, hm]
  have hseg : (Ctx.over ⟨some s, Ctx.empty.lock, Ctx.empty.rep⟩ i).seg ≠ none := by simp [Ctx.over, hs]
  exact congrArg (Except.map (·, rest)) (Ctx.drain_of_override hseg hd)

/-- Behind a lock byte a record goes to the check with the lock pending. -/
theorem decodeOne_lock (hl : i.isLocked = false) :
    decodeOne lk (0xF0 :: (encode i ++ rest)) =
      ((Ctx.mk i.segOverride true i.repField).finish lk i.unprefixed).map (·, rest) := by
  have hover : (Ctx.over ⟨none, true, .none⟩ i) = ⟨i.segOverride, true, i.repField⟩ := by
    simp [Ctx.over, eq_comm]
  rw [decodeOne, decodeFrom_of_lock lk _ _ firstByte_lockByte rfl, ← hover]
  refine decodeFrom_encode hw ⟨fun _ => rfl, fun h => absurd h (by simp [hl]), fun _ => rfl⟩ (fun ea he => ?_) rest
  simp [Ctx.over, Ctx.empty, Instr.segOverride, he]

theorem decodeOne_lock_unconsumed (hc : i.consumeLock lk = none) :
    decodeOne lk (0xF0 :: (encode i ++ rest)) = .error .unconsumedPrefix := by
  obtain ⟨hl, hu⟩ := Instr.not_isLocked_of_consumeLock hc
  rw [decodeOne_lock hw rest hl, Ctx.finish_eq, Ctx.takeLock_of_none rfl hu]
  rfl

theorem decodeOne_lock_notPermitted {j : Instr} (hl : i.isLocked = false) (hc : i.consumeLock lk = some (false, j)) :
    decodeOne lk (0xF0 :: (encode i ++ rest)) = .error .lockNotPermitted := by
  have hr := Instr.repField_of_consumeLock (lk := lk) (i := i) (by simp [hc])
  rw [decodeOne_lock hw rest hl, Instr.unprefixed_eq_self hl hr, Ctx.finish_eq, Ctx.takeLock_of_false rfl hc]
  rfl

theorem decodeOne_lock_permitted {j : Instr} (hl : i.isLocked = false) (hc : i.consumeLock lk = some (true, j)) :
    decodeOne lk (0xF0 :: (encode i ++ rest)) = .ok (j, rest) := by
  have hr := Instr.repField_of_consumeLock (lk := lk) (i := i) (by simp [hc])
  obtain ⟨-, hm, -⟩ := Machine.consumeLock_fields hc
  have hs : (Ctx.mk i.segOverride true i.repField).seg ≠ none → j.mem? ≠ none := by
    rw [hm]; exact Instr.mem?_ne_none_of_segOverride
  rw [decodeOne_lock hw rest hl, Instr.unprefixed_eq_self hl hr, Ctx.finish_eq, Ctx.takeLock_of_true rfl hc]
  exact congrArg (Except.map (·, rest)) (Ctx.drain_of_rep_none hs hr)

theorem decodeOne_rep_unconsumed {b : Byte} {r : Rep} (hb : firstByte b = .rep r) (hr : r ≠ .none)
    (hc : i.consumeRep .rep = none) : decodeOne lk (b :: (encode i ++ rest)) = .error .unconsumedPrefix := by
  obtain ⟨hrep, hi, hu⟩ := Instr.consumeRep_eq_none hc r
  rw [decodeOne, decodeFrom_of_rep lk _ _ hb rfl,
    decodeFrom_encode hw ⟨fun _ => rfl, fun _ => rfl, fun h => absurd hrep h⟩
      (fun ea he => by simp [Ctx.over, Ctx.empty, Instr.segOverride, he]), Ctx.finish_eq,
    Ctx.takeLock_unprefixed hw (Bool.or_false _)]
  have hover : (Ctx.over ⟨Ctx.empty.seg, Ctx.empty.lock, r⟩ i).rep = r := by simp [Ctx.over, hrep]
  have hd : (if i.isLocked then i else i.unprefixed).consumeRep r = none := by split <;> assumption
  exact congrArg (Except.map (·, rest)) (Ctx.drain_of_consumeRep_none (hover.symm ▸ hr) (hover.symm ▸ hd))

end

/-! ### The default `LOCKABLE` (40_decoder_prefixes R153) -/

theorem Lockable.default_allows_xchg (m : Bool) (i : Instr) : Lockable.default.allows .xchgRmReg m i = true := by
  cases m <;> rfl

theorem Lockable.default_allows : ∀ k ∈ Lockable.readModifyWrite, ∀ (m : Bool) (i : Instr),
    Lockable.default.allows k m i = m := by
  have classes : ∀ k ∈ Lockable.readModifyWrite, ∀ m : Bool, decide ((k, m) ∈ Lockable.default.classes) = m := by
    decide
  intro k hk m i
  rw [Lockable.allows, classes k hk m]
  exact Bool.xor_false m

end Sys2Proof

namespace Sys2Proof.Machine

theorem consumeLock_default_of_lockRows {op1 op2 : Operand} {imm : Imm} :
    ∀ e ∈ lockRows op1 op2 imm, e.1.consumeLock .default = some (op1.isMem, e.2) := by
  simp only [lockRows, List.forall_mem_append, List.forall_mem_cons, List.not_mem_nil, false_implies, implies_true,
    and_true, Instr.consumeLock]
  and_intros <;> rw [Lockable.default_allows _ (by decide)]

/-- The 19 kinds that consume a lock are the exchange and the rows of `lockRows`. -/
theorem eq_lockRow_of_consumeLock {lk : Lockable} {i : Instr} (h : i.consumeLock lk ≠ none) :
    ∃ (l : Bool) (op1 op2 : Operand) (imm : Imm),
      i = .xchgRmReg l op1 op2 ∨ ∃ e ∈ lockRows op1 op2 imm, i = e.1 ∨ i = e.2 := by
  cases i
  case xchgRmReg l a b => exact ⟨l, a, b, .b 0, .inl rfl⟩
  case addRmReg l a b | adcRmReg l a b | subRmReg l a b | sbbRmReg l a b | andRmReg l a b | orRmReg l a b
    | xorRmReg l a b =>
    refine ⟨l, a, b, .b 0, .inr ?_⟩
    cases l <;> simp [lockRows]
  case addRmImm l a imm | adcRmImm l a imm | subRmImm l a imm | sbbRmImm l a imm | andRmImm l a imm | orRmImm l a imm
    | xorRmImm l a imm =>
    refine ⟨l, a, a, imm, .inr ?_⟩
    cases l <;> simp [lockRows]
  case incRm l a | decRm l a | neg l a | not l a =>
    refine ⟨l, a, a, .b 0, .inr ?_⟩
    cases l <;> simp [lockRows]
  all_goals exact absurd rfl h

/-- Settles O9: one pending prefix more, and what the check answers to it; the classes of the default `LOCKABLE`; and
the kinds `ConsumeLock` answers for. -/
theorem prefixesAreCheckedAgainstTheBody : Obligations.PrefixesAreCheckedAgainstTheBody :=
  ⟨fun _ _ rest hw => ⟨decodeOne_override_unconsumed hw rest, decodeOne_lock_unconsumed hw rest,
      fun hc => ⟨decodeOne_rep_unconsumed hw rest firstByte_repByte nofun hc,
        decodeOne_rep_unconsumed hw rest firstByte_repneByte nofun hc⟩,
      fun _ => decodeOne_lock_notPermitted hw rest, fun _ => decodeOne_lock_permitted hw rest⟩,
    fun op1 _ _ => ⟨by rw [Instr.consumeLock, Lockable.default_allows_xchg], consumeLock_default_of_lockRows⟩,
    fun _ _ => eq_lockRow_of_consumeLock⟩

/-- Settles O10: each word is the encoding of the record, or an equal spelling of it. -/
theorem wordsOfTheSpecDecode : Obligations.WordsOfTheSpecDecode :=
  ⟨fun _ _ => rfl, fun _ _ => rfl, fun _ _ => rfl, fun _ _ => rfl, fun _ _ => rfl, fun _ => rfl, fun _ _ => rfl⟩

end Sys2Proof.Machine
end

section
/-! PROOFS. Whatever a step does, it is a diff applied to the state, or a change of the condition alone (10_state R36,
R37, R40); so the invariant is kept. -/

namespace Sys2Proof.Machine

/-- A next state that a record gives: the state stuck, or a diff applied. -/
def StuckOrCommitted (s t : State) : Prop := t = stuck s ∨ ∃ ws, t = commit ws s

section
variable {s t : State}

theorem complete_stuckOrCommitted {k : Kind} {d : Except Fault (List Write)} (h : complete k s d = .next t) :
    StuckOrCommitted s t := by
  obtain h | ⟨-, e, ws, -, h⟩ := complete_next h
  · exact .inl h
  · exact .inr ⟨e :: ws, h⟩

theorem runRecord_stuckOrCommitted {j : Instr} (h : runRecord j s = .next t) : StuckOrCommitted s t := by
  unfold runRecord at h
  split at h
  next => exact complete_stuckOrCommitted h
  next =>
    split at h
    next => cases h
    next => cases h; exact .inl rfl

/-- A prefix row runs the record it is folded into. -/
theorem runFolded_stuckOrCommitted {i : Instr} (h : runFolded i s = .next t) : StuckOrCommitted s t := by
  unfold runFolded at h
  split at h
  next => exact runRecord_stuckOrCommitted h
  next => cases h

theorem exec_stuckOrCommitted {i : Instr} (h : exec i s = .next t) : StuckOrCommitted s t := by
  cases hk : recordKind i with
  | some k => exact complete_stuckOrCommitted ((exec_eq_complete hk s).symm.trans h)
  | none =>
    cases i
    case reserved => cases h
    case seg | lock | repne | rep => exact runFolded_stuckOrCommitted h
    all_goals cases hk

/-- A step changes the condition alone, or runs a record. -/
theorem step_next (h : step s = .next t) : (∃ c, t = { s with condition := c }) ∨ ∃ i, exec i s = .next t := by
  unfold step at h
  split at h
  next => cases h; exact .inl ⟨_, rfl⟩
  next => cases h; exact .inl ⟨_, rfl⟩
  next =>
    split at h
    next => cases h
    next => cases h; exact .inl ⟨_, rfl⟩
    next i _ => exact .inr ⟨i, h⟩

/-- What the invariant and the fixed parts of a machine are made of. -/
theorem StuckOrCommitted.keeps (h : StuckOrCommitted s t) (hm : s.mem.wf = true) :
    t.mem.wf = true ∧ t.program = s.program ∧ t.cfg = s.cfg := by
  obtain rfl | ⟨ws, rfl⟩ := h
  · exact ⟨hm, rfl, rfl⟩
  · exact ⟨commit_wf ws s hm, commit_program ws s, commit_cfg ws s⟩

end

/-- Settles O14: every write keeps the canonical form of the memory and reaches neither the program store nor the
parameters. -/
theorem stepKeepsInvariant : Obligations.StepKeepsInvariant := by
  rintro s t ⟨hm, hp⟩ h
  have keeps : t.mem.wf = true ∧ t.program = s.program ∧ t.cfg = s.cfg := by
    obtain ⟨c, rfl⟩ | ⟨i, hi⟩ := step_next h
    · exact ⟨hm, rfl, rfl⟩
    · exact (exec_stuckOrCommitted hi).keeps hm
  obtain ⟨tm, tp, tc⟩ := keeps
  exact ⟨⟨tm, tp ▸ hp⟩, tp, tc⟩

end Sys2Proof.Machine
end

section
/-! PROOFS. What the rule of each kind can write and what it can raise, template by template and kind by kind (10_state
R23, R25, 60_exceptions R434 to R436); no rule is unfolded for this again. -/

namespace Sys2Proof.Machine

/-! ### Answers and reasons -/

/-- The answer meets `A`, or the reason meets `R`. -/
def Answers {α : Type} (A : α → Prop) (R : Fault → Prop) : Except Fault α → Prop
  | .ok a => A a
  | .error f => R f

/-- `AddressRange` of an address beyond the data memory, with no value (60_exceptions R434). -/
def Fault.Beyond (f : Fault) : Prop := ∃ a : Nat, f = .addressRange a none ∧ memSize ≤ a

/-- Raises nothing but `AddressRange` beyond the space. -/
def RaisesBeyond {α : Type} (x : Except Fault α) : Prop := Answers (fun _ => True) Fault.Beyond x

theorem RaisesBeyond.bind {α β : Type} {x : Except Fault α} {g : α → Except Fault β} (h : RaisesBeyond x)
    (k : ∀ a, RaisesBeyond (g a)) : RaisesBeyond (x >>= g) := by
  cases x with
  | error f => exact h
  | ok a => exact k a

theorem raisesBeyond_ok {α : Type} (a : α) : RaisesBeyond (.ok a) := trivial

theorem memReadByte_raisesBeyond (s : State) (a : Nat) : RaisesBeyond (memReadByte s a) := by
  by_cases h : a < memSize
  · rw [memReadByte_ok h]; trivial
  · rw [memReadByte_error (Nat.le_of_not_lt h)]; exact ⟨a, rfl, Nat.le_of_not_lt h⟩

theorem memRead_raisesBeyond (s : State) (w : Width) (a : Nat) : RaisesBeyond (memRead s w a) := by
  cases w with
  | byte => exact (memReadByte_raisesBeyond s a).bind fun _ => trivial
  | word => exact (memReadByte_raisesBeyond s a).bind fun _ => (memReadByte_raisesBeyond s _).bind fun _ => trivial

theorem readOp_raisesBeyond (s : State) (w : Width) (op : Operand) : RaisesBeyond (readOp s w op) := by
  cases op with
  | reg8 | reg16 => trivial
  | mem ea => exact memRead_raisesBeyond s w _

theorem pop16_raisesBeyond (s : State) (k : Nat) : RaisesBeyond (pop16 s k) :=
  (memRead_raisesBeyond s .word _).bind fun _ => trivial

theorem readFar_raisesBeyond (s : State) (ea : Ea) : RaisesBeyond (readFar s ea) :=
  (memRead_raisesBeyond s .word _).bind fun _ => (memRead_raisesBeyond s .word _).bind fun _ => trivial

theorem pushedValue_raisesBeyond (s : State) (op : Operand) : RaisesBeyond (pushedValue s op) :=
  (readOp_raisesBeyond s .word op).bind fun _ => trivial

/-! ### Effects -/

/-- What a kind may do beside writing `ip`, general registers, memory and the six arithmetic flags, and raising
`AddressRange`: write segment registers, write the flags in `flags`, raise `DivideError`. -/
structure Effects where
  segs    : Bool
  flags   : List Flag
  divides : Bool

/-- The kinds with an effect of their own. -/
def effects : Kind → Effects
  | .movSregRm | .popSreg | .lds | .les | .callFar | .callFarInd | .jmpFar | .jmpFarInd | .retFar | .retFarImm =>
    ⟨true, [], false⟩
  | .int | .int3 | .into => ⟨true, [.IF, .TF], false⟩
  | .iret => ⟨true, [.IF, .DF, .TF], false⟩
  | .popf => ⟨false, [.IF, .DF, .TF], false⟩
  | .cli | .sti => ⟨false, [.IF], false⟩
  | .cld | .std => ⟨false, [.DF], false⟩
  | .div | .idiv => ⟨false, [], true⟩
  | _ => ⟨false, [], false⟩

/-- The write is one the effects allow; a free draw only where `UNDEF_FLAGS` says so (42_alu_flags R208). -/
def Write.Within (s : State) (x : Effects) : Write → Prop
  | .seg _ _ => x.segs = true
  | .flag f _ => f ∈ arithFlags ++ x.flags
  | .draw => s.cfg.undefFlags = .draw
  | .ip _ | .reg _ _ | .reg8 _ _ | .mem _ _ => True

/-- All writes are ones the effects allow. -/
def Within (s : State) (x : Effects) (ws : List Write) : Prop := ∀ e ∈ ws, e.Within s x

/-- A diff within the effects of a kind. -/
def DiffWithin (s : State) (x : Effects) (d : Except Fault (List Write)) : Prop :=
  Answers (Within s x) (fun f => f.Beyond ∨ x.divides = true ∧ f = .divideError) d

section
variable {s : State} {x : Effects}

theorem Within.append {ws vs : List Write} (h : Within s x ws) (g : Within s x vs) : Within s x (ws ++ vs) :=
  fun e he => (List.mem_append.1 he).elim (h e) (g e)

theorem Within.nil : Within s x [] := nofun

/-- A first write that every kind may make. -/
theorem Within.cons {e : Write} {ws : List Write} (he : e.Within s x) (h : Within s x ws) : Within s x (e :: ws) :=
  List.forall_mem_cons.2 ⟨he, h⟩

theorem DiffWithin.bind {α : Type} {y : Except Fault α} {g : α → Except Fault (List Write)} (h : RaisesBeyond y)
    (k : ∀ a, DiffWithin s x (g a)) : DiffWithin s x (y >>= g) := by
  cases y with
  | error f => exact .inl h
  | ok a => exact k a

/-- A part that is itself writes. -/
theorem DiffWithin.bindWrites {y : Except Fault (List Write)} {g : List Write → Except Fault (List Write)}
    (h : DiffWithin s x y) (k : ∀ ws, Within s x ws → DiffWithin s x (g ws)) : DiffWithin s x (y >>= g) := by
  cases y with
  | error f => exact h
  | ok ws => exact k ws h

/-! ### The shared operations -/

variable (t : State)

theorem memWrite_within (w : Width) (a v : Nat) : DiffWithin s x (memWrite t w a v) := by
  cases w with
  | byte => exact .bind (memReadByte_raisesBeyond t a) fun _ => .cons trivial .nil
  | word =>
    exact .bind (memReadByte_raisesBeyond t a) fun _ => .bind (memReadByte_raisesBeyond t _) fun _ =>
      .cons trivial (.cons trivial .nil)

theorem writeOp_within (w : Width) (op : Operand) (v : Nat) : DiffWithin s x (writeOp t w op v) := by
  cases op with
  | reg8 | reg16 => exact .cons trivial .nil
  | mem ea => exact memWrite_within t w _ v

theorem push16_within (v : Word) (k : Nat) : DiffWithin s x (push16 t v k) := memWrite_within t .word _ _

/-- The five flags of INC and DEC with their values (42_alu_flags R206). -/
def AluResult.fiveFlags (r : AluResult) : List (Flag × Bool) :=
  [(.PF, r.PF), (.AF, r.AF), (.ZF, r.ZF), (.SF, r.SF), (.OF, r.OF)]

/-- The six arithmetic flags with their values (44_arithmetic R280). -/
def AluResult.sixFlags (r : AluResult) : List (Flag × Bool) := (.CF, r.CF) :: r.fiveFlags

/-- Flags of the six are within every kind's effects. -/
theorem within_map_flag {ds : List (Flag × Bool)} (h : ds.map Prod.fst ⊆ arithFlags) :
    Within s x (ds.map fun e => .flag e.1 e.2) := fun e he => by
  obtain ⟨d, hd, rfl⟩ := List.mem_map.1 he
  exact List.mem_append_left _ (h (List.mem_map_of_mem hd))

theorem AluResult.flagsAll_within (r : AluResult) : Within s x r.flagsAll :=
  within_map_flag (ds := r.sixFlags) (by simp [AluResult.sixFlags, AluResult.fiveFlags, arithFlags])

theorem AluResult.flagsNoCarry_within (r : AluResult) : Within s x r.flagsNoCarry :=
  within_map_flag (ds := r.fiveFlags) (by simp [AluResult.fiveFlags, arithFlags])

theorem workingFlags_within : Within s x (workingFlags t) :=
  within_map_flag (ds := arithFlags.map fun f => (f, t.flag f)) (by simp [arithFlags])

theorem undefFlags_of_draw_mem {ds : List (Flag × Bool)} {us : List Flag} (h : .draw ∈ flagWrites s ds us) :
    s.cfg.undefFlags = .draw := by
  unfold flagWrites at h
  split at h
  next => simp at h
  next hu => exact hu

theorem flagWrites_within {ds : List (Flag × Bool)} {us : List Flag} (hd : ds.map Prod.fst ⊆ arithFlags)
    (hu : us ⊆ arithFlags) : Within s x (flagWrites s ds us) := fun e he => by
  obtain rfl | ⟨f, b, rfl, hf⟩ := mem_flagWrites he
  · exact undefFlags_of_draw_mem he
  · have hus : undefTouched s us ⊆ us := by unfold undefTouched; split <;> simp
    exact List.mem_append_left _ ((List.mem_append.1 hf).elim (fun h => hd h) fun h => hu (hus h))

theorem logicFlags_within (w : Width) (r : Nat) : Within s x (logicFlags s w r) :=
  flagWrites_within (by simp [szp, arithFlags]) (by simp [arithFlags])

theorem shiftFlags_within (op : ShiftOp) (w : Width) (c a r : Nat) (cf : Bool) :
    Within s x (shiftFlags s op w c a r cf) := by
  refine flagWrites_within ?_ ?_
  · cases op.isShift <;> by_cases hc : c = 1 <;> simp [szp, arithFlags, hc]
  · cases op.isShift <;> by_cases hc : c = 1 <;> simp [arithFlags, hc]

/-! ### The templates -/

variable (i : Instr) (w : Width) (op op2 : Operand)

theorem arithDiff_within {src : Except Fault Nat} (h : RaisesBeyond src) (f : Nat → Nat → AluResult) :
    DiffWithin s x (arithDiff i s w op src f) :=
  .bind (readOp_raisesBeyond s w op) fun _ => .bind h fun _ => .bindWrites (writeOp_within s w op _) fun _ hws =>
    .cons trivial (hws.append (AluResult.flagsAll_within _))

theorem compareDiff_within {src : Except Fault Nat} (h : RaisesBeyond src) :
    DiffWithin s x (compareDiff i s w op src) :=
  .bind (readOp_raisesBeyond s w op) fun _ => .bind h fun _ => .cons trivial (AluResult.flagsAll_within _)

theorem stepByOneDiff_within (f : Nat → AluResult) : DiffWithin s x (stepByOneDiff i s w op f) :=
  .bind (readOp_raisesBeyond s w op) fun _ => .bindWrites (writeOp_within s w op _) fun _ hws =>
    .cons trivial (hws.append (AluResult.flagsNoCarry_within _))

theorem diffNeg_within (l : Bool) : DiffWithin s x (diffNeg l op s) :=
  .bind (readOp_raisesBeyond s _ op) fun _ => .bindWrites (writeOp_within s _ op _) fun _ hws =>
    .cons trivial (hws.append (AluResult.flagsAll_within _))

theorem diffNot_within (l : Bool) : DiffWithin s x (diffNot l op s) :=
  .bind (readOp_raisesBeyond s _ op) fun _ => .bindWrites (writeOp_within s _ op _) fun _ hws => .cons trivial hws

theorem logicDiff_within {src : Except Fault Nat} (h : RaisesBeyond src) (f : Nat → Nat → Nat) :
    DiffWithin s x (logicDiff i s w op src f) :=
  .bind (readOp_raisesBeyond s w op) fun _ => .bind h fun _ => .bindWrites (writeOp_within s w op _) fun _ hws =>
    .cons trivial (hws.append (logicFlags_within w _))

theorem testDiff_within {src : Except Fault Nat} (h : RaisesBeyond src) : DiffWithin s x (testDiff i s w op src) :=
  .bind (readOp_raisesBeyond s w op) fun _ => .bind h fun _ => .cons trivial (logicFlags_within w _)

theorem shiftDiff_within (sh : ShiftOp) (c : ShiftCount) : DiffWithin s x (shiftDiff i s sh op c) := by
  refine .bind (readOp_raisesBeyond s _ op) fun a => ?_
  split
  · exact .cons trivial .nil
  · exact .bindWrites (writeOp_within s _ op _) fun _ hws => .cons trivial (hws.append (shiftFlags_within sh _ _ _ _ _))

theorem asciiAdjustDiff_within (d d' : Int) : DiffWithin s x (asciiAdjustDiff i s d d') :=
  .cons trivial (.cons trivial (flagWrites_within (by simp [arithFlags]) (by simp [arithFlags])))

theorem decimalAdjustDiff_within (d : Int) : DiffWithin s x (decimalAdjustDiff i s d) :=
  .cons trivial (.cons trivial (flagWrites_within (by simp [arithFlags]) (by simp [arithFlags])))

theorem productDiff_within (p : Int) (wide : Bool) : Within s x (productDiff i s w p wide) := by
  refine .append (.append (.cons trivial (.cons trivial .nil)) ?_)
    (flagWrites_within (by simp [arithFlags]) (by simp [arithFlags]))
  cases w with
  | byte => exact .nil
  | word => exact .cons trivial .nil

theorem quotientDiff_within (q r : Int) : Within s x (quotientDiff i s w q r) := by
  refine .append (.append (.cons trivial .nil) ?_) (flagWrites_within (by simp) (by simp [arithFlags]))
  cases w with
  | byte => exact .cons trivial .nil
  | word => exact .cons trivial (.cons trivial .nil)

theorem moveDiff_within {src : Except Fault Nat} (h : RaisesBeyond src) : DiffWithin s x (moveDiff i s w op src) :=
  .bind h fun _ => .bindWrites (writeOp_within s w op _) fun _ hws => .cons trivial hws

theorem pushDiff_within (v : Word) : DiffWithin s x (pushDiff i s v) :=
  .bindWrites (push16_within s v 1) fun _ hws => .cons trivial (hws.append (.cons trivial .nil))

theorem popDiff_within : DiffWithin s x (popDiff i s op) := by
  refine .bind (pop16_raisesBeyond s 1) fun v => ?_
  split
  · exact .cons trivial (.cons trivial .nil)
  · exact .bindWrites (writeOp_within s .word op _) fun _ hws => .cons trivial (hws.append (.cons trivial .nil))

theorem exchangeDiff_within : DiffWithin s x (exchangeDiff i s w op op2) :=
  .bind (readOp_raisesBeyond s w op) fun _ => .bind (readOp_raisesBeyond s w op2) fun _ =>
    .bindWrites (writeOp_within s w op _) fun _ hws => .bindWrites (writeOp_within s w op2 _) fun _ hws2 =>
      .cons trivial (hws.append hws2)

theorem callDiff_within (v : Word) : DiffWithin s x (callDiff i s v) :=
  .bindWrites (push16_within s _ 1) fun _ hws => .cons trivial (hws.append (.cons trivial .nil))

theorem returnDiff_within (n : Word) : DiffWithin s x (returnDiff s n) :=
  .bind (pop16_raisesBeyond s 1) fun _ => .cons trivial (.cons trivial .nil)

section
variable (hx : x.segs = true)
include hx

theorem loadFarDiff_within (r : Reg16) (sr : Sreg) (ea : Ea) : DiffWithin s x (loadFarDiff i s r sr ea) :=
  .bind (readFar_raisesBeyond s ea) fun _ => .cons trivial (.cons trivial (.cons hx .nil))

theorem callFarDiff_within (sg off : Word) : DiffWithin s x (callFarDiff i s sg off) :=
  .bindWrites (push16_within s _ 1) fun _ hws => .bindWrites (push16_within s _ 2) fun _ hws2 =>
    .cons trivial ((hws.append hws2).append (.cons trivial (.cons hx .nil)))

theorem returnFarDiff_within (n : Word) : DiffWithin s x (returnFarDiff s n) :=
  .bind (pop16_raisesBeyond s 1) fun _ => .bind (pop16_raisesBeyond s 2) fun _ =>
    .cons trivial (.cons hx (.cons trivial .nil))

theorem softInterrupt_within (hf : .IF ∈ x.flags ∧ .TF ∈ x.flags) (type : Byte) :
    DiffWithin s x (softInterrupt i type s) := by
  obtain ⟨hif, htf⟩ := hf
  exact .bindWrites (push16_within s _ 1) fun _ h1 => .bindWrites (push16_within s _ 2) fun _ h2 =>
    .bindWrites (push16_within s _ 3) fun _ h3 => .bind (memRead_raisesBeyond s .word _) fun _ =>
      .bind (memRead_raisesBeyond s .word _) fun _ => .cons trivial (((h1.append h2).append h3).append
        (.cons trivial (.cons hx (.cons (List.mem_append_right _ hif) (.cons (List.mem_append_right _ htf) .nil)))))

end

theorem flag_within {f : Flag} (h : f ∈ arithFlags ++ x.flags) (b : Bool) : (Write.flag f b).Within s x := h

/-- Flags of an image that the effects allow. -/
theorem flagsFrom_within {fs : List Flag} (h : fs ⊆ arithFlags ++ x.flags) (v : Word) :
    Within s x (flagsFrom fs v) := by
  rintro e he
  obtain ⟨f, hf, rfl⟩ := List.mem_map.1 he
  exact h hf

/-! ### The strings -/

/-- The memory entries of a repeat; what it raises, an element raised. -/
theorem repeatElements_answers {element : State → Except Fault (List Write)} (h : ∀ t, RaisesBeyond (element t))
    (stop : State → Bool) (n : Nat) :
    Answers (fun p => ∀ e ∈ p.1, e.isMem = true) Fault.Beyond (repeatElements element stop n t) := by
  induction n generalizing t with
  | zero => exact fun _ he => absurd he List.not_mem_nil
  | succ n ih =>
    rw [repeatElements]
    cases ht : element t with
    | error f => exact (ht ▸ h t : RaisesBeyond (.error f))
    | ok ws =>
      have hmem : ∀ e ∈ ws.filter Write.isMem, e.isMem = true := fun e he => (List.mem_filter.1 he).2
      simp only [bind, Except.bind]
      split
      · exact hmem
      · have hrest := ih ((commit ws t).setReg .cx (t.reg .cx - 1))
        cases hr : repeatElements element stop n ((commit ws t).setReg .cx (t.reg .cx - 1)) with
        | error f => exact (hr ▸ hrest : Answers _ _ (.error f))
        | ok p =>
          rw [hr] at hrest
          exact fun e he => (List.mem_append.1 he).elim (hmem e) (hrest e)

theorem within_of_isMem {ws : List Write} (h : ∀ e ∈ ws, e.isMem = true) : Within s x ws := fun e he => by
  have hm := h e he
  cases e with
  | mem => trivial
  | _ => cases hm

theorem stringDiff_within {element : State → Except Fault (List Write)} (h : DiffWithin s x (element s))
    (hr : ∀ t, RaisesBeyond (element t)) (r : Rep) (index : List Reg16) (loads : Option Width) (compares : Bool) :
    DiffWithin s x (stringDiff i s r element index loads compares) := by
  unfold stringDiff
  split
  · exact .bindWrites h fun _ hws => .cons trivial hws
  · have hrep := repeatElements_answers s hr (fun t => compares && repeatStops r t) (s.reg .cx).toNat
    cases he : repeatElements element (fun t => compares && repeatStops r t) (s.reg .cx).toNat s with
    | error f => rw [he] at hrep; exact .inl hrep
    | ok p =>
      rw [he] at hrep
      refine Within.append (.append (.append (.append (.cons trivial (within_of_isMem hrep)) ?index)
        (.cons trivial .nil)) ?loads) ?flags
      case index =>
        intro e he
        obtain ⟨r, -, rfl⟩ := List.mem_map.1 he
        trivial
      case loads =>
        split
        · exact .cons trivial .nil
        · exact .cons trivial .nil
        · exact .nil
      case flags =>
        split
        · exact workingFlags_within p.2
        · exact .nil

theorem movsElement_within (y : State) : DiffWithin s x (movsElement w y) :=
  .bind (memRead_raisesBeyond y w _) fun _ => .bindWrites (memWrite_within y w _ _) fun _ hws =>
    hws.append (.cons trivial (.cons trivial .nil))

theorem cmpsElement_within (y : State) : DiffWithin s x (cmpsElement w y) :=
  .bind (memRead_raisesBeyond y w _) fun _ => .bind (memRead_raisesBeyond y w _) fun _ =>
    .cons trivial (.cons trivial (AluResult.flagsAll_within _))

theorem scasElement_within (y : State) : DiffWithin s x (scasElement w y) :=
  .bind (readOp_raisesBeyond y w _) fun _ => .bind (memRead_raisesBeyond y w _) fun _ =>
    .cons trivial (AluResult.flagsAll_within _)

theorem lodsElement_within (y : State) : DiffWithin s x (lodsElement w y) := by
  refine .bind (memRead_raisesBeyond y w _) fun _ => .cons ?acc (.cons trivial .nil)
  case acc => cases w <;> trivial

theorem stosElement_within (y : State) : DiffWithin s x (stosElement w y) :=
  .bind (readOp_raisesBeyond y w _) fun _ => .bindWrites (memWrite_within y w _ _) fun _ hws =>
    hws.append (.cons trivial .nil)

/-- A diff of a kind that does not divide raises nothing but `AddressRange`. -/
theorem DiffWithin.raisesBeyond {d : Except Fault (List Write)} (h : DiffWithin s ⟨false, [], false⟩ d) :
    RaisesBeyond d := by
  cases d with
  | error f => exact h.resolve_right nofun
  | ok ws => trivial

/-! ### Each kind by the template of its diff -/

theorem diffDiv_within (hx : x.divides = true) : DiffWithin s x (diffDiv op s) := by
  refine .bind (readOp_raisesBeyond s _ op) fun _ => ?_
  dsimp only
  split
  · exact .inr ⟨hx, rfl⟩
  · exact quotientDiff_within _ _ _ _

theorem diffIdiv_within (hx : x.divides = true) : DiffWithin s x (diffIdiv op s) := by
  refine .bind (readOp_raisesBeyond s _ op) fun _ => ?_
  dsimp only
  split
  · exact .inr ⟨hx, rfl⟩
  · exact quotientDiff_within _ _ _ _

theorem diffInto_within (hx : x.segs = true) (hf : .IF ∈ x.flags ∧ .TF ∈ x.flags) : DiffWithin s x (diffInto s) := by
  unfold diffInto
  split
  · exact softInterrupt_within _ hx hf 4
  · exact .cons trivial .nil

end

/-- The diff of a record of any kind is within the effects of the kind. -/
theorem ruleDiff_within {i : Instr} {k : Kind} (h : recordKind i = some k) (s : State) :
    DiffWithin s (effects k) (ruleDiff i s) := by
  cases i <;> cases h
  case movRmReg => exact moveDiff_within _ _ _ (readOp_raisesBeyond ..)
  case movRmImm | movRegImm | movRmSreg => exact moveDiff_within _ _ _ (raisesBeyond_ok _)
  case movAccMem | movMemAcc => exact moveDiff_within _ _ _ (readOp_raisesBeyond ..)
  case movSregRm => exact .bind (readOp_raisesBeyond ..) fun _ => .cons trivial (.cons rfl .nil)
  case pushRm | pushReg => exact .bind (pushedValue_raisesBeyond ..) fun _ => pushDiff_within ..
  case pushSreg | pushf => exact pushDiff_within ..
  case popRm | popReg => exact popDiff_within ..
  case popSreg => exact .bind (pop16_raisesBeyond ..) fun _ => .cons trivial (.cons rfl (.cons trivial .nil))
  case xchgRmReg | xchgAccReg => exact exchangeDiff_within ..
  case inFixed | inVar | outFixed | outVar | hlt | wait | unknown => exact Within.nil
  case xlat => exact .bind (memRead_raisesBeyond ..) fun _ => .cons trivial (.cons trivial .nil)
  case lea | lahf | cbw | cwd => exact .cons trivial (.cons trivial .nil)
  case lds | les => exact loadFarDiff_within _ rfl ..
  case sahf => exact .cons trivial (flagsFrom_within (by decide) _)
  case popf =>
    exact .bind (pop16_raisesBeyond ..) fun _ => .cons trivial (.cons trivial (flagsFrom_within (by decide) _))
  case addRmReg | adcRmReg | subRmReg | sbbRmReg => exact arithDiff_within _ _ _ (readOp_raisesBeyond ..) _
  case addRmImm | addAccImm | adcRmImm | adcAccImm | subRmImm | subAccImm | sbbRmImm | sbbAccImm =>
    exact arithDiff_within _ _ _ (raisesBeyond_ok _) _
  case incRm | incReg | decRm | decReg => exact stepByOneDiff_within ..
  case aaa | aas => exact asciiAdjustDiff_within _ _ _
  case daa | das => exact decimalAdjustDiff_within _ _
  case neg => exact diffNeg_within ..
  case cmpRmReg => exact compareDiff_within _ _ _ (readOp_raisesBeyond ..)
  case cmpRmImm | cmpAccImm => exact compareDiff_within _ _ _ (raisesBeyond_ok _)
  case mul | imul =>
    exact .bind (readOp_raisesBeyond ..) fun _ => .bind (readOp_raisesBeyond ..) fun _ => productDiff_within _ _ _ _
  case aam | aad =>
    exact .cons trivial (.cons trivial (flagWrites_within (by simp [szp, arithFlags]) (by simp [arithFlags])))
  case div => exact diffDiv_within _ rfl
  case idiv => exact diffIdiv_within _ rfl
  case not => exact diffNot_within ..
  case shl | shr | sar | rol | ror | rcl | rcr => exact shiftDiff_within ..
  case andRmReg | orRmReg | xorRmReg => exact logicDiff_within _ _ _ (readOp_raisesBeyond ..) _
  case andRmImm | andAccImm | orRmImm | orAccImm | xorRmImm | xorAccImm =>
    exact logicDiff_within _ _ _ (raisesBeyond_ok _) _
  case testRmReg => exact testDiff_within _ _ _ (readOp_raisesBeyond ..)
  case testRmImm | testAccImm => exact testDiff_within _ _ _ (raisesBeyond_ok _)
  case movs w r =>
    exact stringDiff_within (.movs w r) (movsElement_within w s)
      (fun t => (movsElement_within w t).raisesBeyond (s := s)) r
      [.si, .di] none false
  case cmps w r =>
    exact stringDiff_within (.cmps w r) (cmpsElement_within w s)
      (fun t => (cmpsElement_within w t).raisesBeyond (s := s)) r
      [.si, .di] none true
  case scas w r =>
    exact stringDiff_within (.scas w r) (scasElement_within w s)
      (fun t => (scasElement_within w t).raisesBeyond (s := s)) r
      [.di] none true
  case lods w r =>
    exact stringDiff_within (.lods w r) (lodsElement_within w s)
      (fun t => (lodsElement_within w t).raisesBeyond (s := s)) r
      [.si] (some w) false
  case stos w r =>
    exact stringDiff_within (.stos w r) (stosElement_within w s)
      (fun t => (stosElement_within w t).raisesBeyond (s := s)) r
      [.di] none false
  case callNear => exact callDiff_within ..
  case callNearInd => exact .bind (readOp_raisesBeyond ..) fun _ => callDiff_within ..
  case callFar => exact callFarDiff_within _ rfl ..
  case callFarInd => exact .bind (readFar_raisesBeyond ..) fun _ => callFarDiff_within _ rfl ..
  case jmpNearInd => exact .bind (readOp_raisesBeyond ..) fun _ => .cons trivial .nil
  case jmpFar => exact .cons trivial (.cons rfl .nil)
  case jmpFarInd => exact .bind (readFar_raisesBeyond ..) fun _ => .cons trivial (.cons rfl .nil)
  case retNear | retNearImm => exact returnDiff_within ..
  case retFar | retFarImm => exact returnFarDiff_within rfl ..
  case loop | loopz | loopnz => exact .cons trivial (.cons trivial .nil)
  case int | int3 => exact softInterrupt_within _ rfl (by decide) _
  case into => exact diffInto_within rfl (by decide)
  case iret =>
    exact .bind (pop16_raisesBeyond ..) fun _ => .bind (pop16_raisesBeyond ..) fun _ =>
      .bind (pop16_raisesBeyond ..) fun _ => .cons trivial (.cons rfl (.cons trivial (flagsFrom_within (by decide) _)))
  case clc | cmc | stc | cld | std | cli | sti => exact .cons trivial (.cons (flag_within (by decide) _) .nil)
  all_goals exact .cons trivial .nil

end Sys2Proof.Machine
end

section
/-! PROOFS. The whole-machine rules: which kinds write segment registers and control flags (10_state R23, R25), which
raise what (60_exceptions R434 to R436), and that the ordered diff of a step, applied, is the step (10_state R38 to
R40). -/

namespace Sys2Proof.Machine

/-! ### What writes within the effects of a kind leave alone -/

section
variable {s : State} {x : Effects}

theorem Within.commit_segs {ws : List Write} (h : Within s x ws) (hx : x.segs = false) (t : State) :
    (commit ws t).segs = t.segs := by
  induction ws generalizing t with
  | nil => rfl
  | cons e ws ih =>
    obtain ⟨he, hws⟩ := List.forall_mem_cons.1 h
    rw [commit_cons, ih hws]
    cases e with
    | seg r v => exact absurd (hx.symm.trans he) nofun
    | mem a v => exact State.setByte_segs t a v
    | ip | reg | reg8 | flag | draw => rfl

theorem Within.commit_flag {ws : List Write} (h : Within s x ws) {f : Flag} (hf : f ∉ arithFlags ++ x.flags)
    (t : State) : (commit ws t).flag f = t.flag f := by
  induction ws generalizing t with
  | nil => rfl
  | cons e ws ih =>
    obtain ⟨he, hws⟩ := List.forall_mem_cons.1 h
    rw [commit_cons, ih hws]
    cases e with
    | flag g b =>
      have hne : f ≠ g := fun hg => hf (hg ▸ he)
      simp [hne]
    | mem a v => exact State.setByte_flag t a v f
    | ip | reg | reg8 | seg | draw => rfl

end

theorem mem_of_effects_segs {k : Kind} (h : (effects k).segs = true) :
    k ∈ [Kind.movSregRm, .popSreg, .lds, .les, .callFar, .callFarInd, .jmpFar, .jmpFarInd, .retFar, .retFarImm,
      .int, .int3, .into, .iret] := by
  unfold effects at h
  split at h <;> simp at h ⊢

theorem mem_of_effects_IF {k : Kind} (h : .IF ∈ arithFlags ++ (effects k).flags) :
    k ∈ [Kind.cli, .sti, .popf, .int, .int3, .into, .iret] := by
  unfold effects at h
  split at h <;> simp [arithFlags] at h ⊢

theorem mem_of_effects_DF {k : Kind} (h : .DF ∈ arithFlags ++ (effects k).flags) :
    k ∈ [Kind.cld, .std, .popf, .iret] := by
  unfold effects at h
  split at h <;> simp [arithFlags] at h ⊢

theorem mem_of_effects_TF {k : Kind} (h : .TF ∈ arithFlags ++ (effects k).flags) :
    k ∈ [Kind.popf, .int, .int3, .into, .iret] := by
  unfold effects at h
  split at h <;> simp [arithFlags] at h ⊢

theorem eq_div_or_idiv_of_effects {k : Kind} (h : (effects k).divides = true) : k = .div ∨ k = .idiv := by
  unfold effects at h
  split at h <;> simp at h ⊢

/-- A next state of a record is the state stuck, or writes within the effects of its kind applied. -/
theorem exec_next_within {i : Instr} {k : Kind} {s t : State} (hk : recordKind i = some k) (h : exec i s = .next t) :
    t = stuck s ∨ ∃ ws, Within s (effects k) ws ∧ t = commit ws s := by
  rw [exec_eq_complete hk] at h
  obtain ht | ⟨-, e, ws, hd, ht⟩ := complete_next h
  · exact .inl ht
  · have hw := ruleDiff_within hk s
    rw [hd] at hw
    exact .inr ⟨_, hw, ht⟩

/-- Settles O57: the writes of a record are within the effects of its kind. -/
theorem onlyTheseKindsWriteSegmentsAndControlFlags : Obligations.OnlyTheseKindsWriteSegmentsAndControlFlags := by
  intro s t i k hk ht
  obtain rfl | ⟨ws, hw, rfl⟩ := exec_next_within hk ht
  · exact ⟨fun _ => rfl, fun _ => rfl, fun _ => rfl, fun _ => rfl⟩
  · exact ⟨fun h => hw.commit_segs (Bool.eq_false_iff.2 fun hs => h (mem_of_effects_segs hs)) s,
      fun h => hw.commit_flag (fun hf => h (mem_of_effects_IF hf)) s,
      fun h => hw.commit_flag (fun hf => h (mem_of_effects_DF hf)) s,
      fun h => hw.commit_flag (fun hf => h (mem_of_effects_TF hf)) s⟩

/-! ### What a step raises -/

/-- A completed diff is a next state, or the exception the rule raised. -/
theorem complete_next_or_fault (k : Kind) (s : State) (d : Except Fault (List Write)) :
    (∃ t, complete k s d = .next t) ∨ ∃ f, d = .error f ∧ complete k s d = .fault f := by
  by_cases hk : k ∈ s.cfg.simulated
  case neg => exact .inl ⟨_, complete_of_not_simulated hk d⟩
  case pos =>
    match d with
    | .error f => exact .inr ⟨f, rfl, complete_error hk⟩
    | .ok [] => exact .inl ⟨_, complete_nil k s⟩
    | .ok (e :: ws) => exact .inl ⟨_, complete_ok hk⟩

/-- Settles O58: what the diff of a record raises is within the effects of its kind. -/
theorem onlyTheseExceptions : Obligations.OnlyTheseExceptions := by
  intro s i k hk
  rw [exec_eq_complete hk]
  obtain hnext | ⟨f, hd, hf⟩ := complete_next_or_fault k s (ruleDiff i s)
  · exact .inl hnext
  · have hw := ruleDiff_within hk s
    rw [hd] at hw
    obtain ⟨a, rfl, ha⟩ | ⟨hdiv, rfl⟩ := hw
    · exact .inr (.inl ⟨a, hf, Int.ofNat_le.2 ha⟩)
    · exact .inr (.inr ⟨eq_div_or_idiv_of_effects hdiv, hf⟩)

/-! ### The ordered diff applied -/

/-- The two states agree on all that is no field of the diff. -/
def SameRest (u t : State) : Prop :=
  u.mem = t.mem ∧ u.program = t.program ∧ u.cfg = t.cfg ∧ u.draws = t.draws ∧ u.condition = t.condition

theorem Segs.ext_get {x y : Segs} (h : ∀ r, x.get r = y.get r) : x = y := by
  cases x; cases y
  simp only [Segs.mk.injEq]
  exact ⟨h .cs, h .ds, h .es, h .ss⟩

theorem Flags.ext_get {x y : Flags} (h : ∀ f, x.get f = y.get f) : x = y := by
  cases x; cases y
  simp only [Flags.mk.injEq]
  exact ⟨h .CF, h .PF, h .AF, h .ZF, h .SF, h .OF, h .IF, h .DF, h .TF⟩

theorem toNat_injective : Function.Injective Bool.toNat := by decide

/-- States that agree on every field of the diff and on the rest are equal. -/
theorem State.eq_of_values {u t : State} (h : ∀ q : Key, q.value u = q.value t) (hr : SameRest u t) : u = t := by
  obtain ⟨hmem, hprogram, hcfg, hdraws, hcondition⟩ := hr
  have hregs : u.regs = t.regs := Regs.ext_get fun r => BitVec.eq_of_toNat_eq (h (.reg r))
  have hsegs : u.segs = t.segs := Segs.ext_get fun r => BitVec.eq_of_toNat_eq (h (.seg r))
  have hflags : u.flags = t.flags := Flags.ext_get fun f => toNat_injective (h (.flag f))
  have hip : u.ip = t.ip := BitVec.eq_of_toNat_eq (h .ip)
  cases u; cases t
  simp only [State.mk.injEq]
  exact ⟨hregs, hsegs, hip, hflags, hmem, hprogram, hcfg, hdraws, hcondition⟩

/-- A write leaves every field alone but its own. -/
theorem Write.value_apply {e : Write} {q : Key} (h : e.key ≠ some q) (t : State) :
    q.value (e.apply t) = q.value t := by
  cases e with
  | mem a v => cases q <;> simp [Key.value]
  | draw => cases q <;> rfl
  | ip v =>
    cases q with
    | ip => exact absurd rfl h
    | reg | seg | flag => rfl
  | reg r v =>
    cases q with
    | reg q =>
      have hq : q ≠ r := fun hq => h (by rw [hq]; rfl)
      simp [Key.value, hq]
    | ip | seg | flag => rfl
  | reg8 r v =>
    cases q with
    | reg q =>
      have hq : q ≠ r.parent := fun hq => h (by rw [hq]; rfl)
      simp [Key.value, State.setReg8_reg_other _ _ _ hq]
    | ip | seg | flag => rfl
  | seg r v =>
    cases q with
    | seg q =>
      have hq : q ≠ r := fun hq => h (by rw [hq]; rfl)
      simp [Key.value, hq]
    | ip | reg | flag => rfl
  | flag f b =>
    cases q with
    | flag q =>
      have hq : q ≠ f := fun hq => h (by rw [hq]; rfl)
      simp [Key.value, hq]
    | ip | reg | seg => rfl

/-- An entry sets its field and leaves every other one alone. -/
theorem Entry.value_apply_field (s' u : State) (k q : Key) (b : Nat) :
    q.value ((Entry.field k b (k.value s')).apply u) = if q = k then k.value s' else q.value u := by
  cases k <;> cases q <;> simp [Entry.apply, Key.value, apply_ite BitVec.toNat, apply_ite Bool.toNat]

/-- A write of a field, and its entry, reach nothing else. -/
theorem Write.sameRest_apply {e : Write} {k : Key} (h : e.key = some k) (t : State) : SameRest (e.apply t) t := by
  cases e with
  | ip | reg | reg8 | seg | flag => exact ⟨rfl, rfl, rfl, rfl, rfl⟩
  | mem | draw => cases h

theorem Entry.sameRest_apply_field (k : Key) (b a : Nat) (u : State) : SameRest ((Entry.field k b a).apply u) u := by
  cases k <;> exact ⟨rfl, rfl, rfl, rfl, rfl⟩

theorem SameRest.trans {u t v : State} (h : SameRest u t) (g : SameRest t v) : SameRest u v := by
  obtain ⟨h1, h2, h3, h4, h5⟩ := h
  obtain ⟨g1, g2, g3, g4, g5⟩ := g
  exact ⟨h1.trans g1, h2.trans g2, h3.trans g3, h4.trans g4, h5.trans g5⟩

theorem SameRest.symm {u t : State} (h : SameRest u t) : SameRest t u := by
  obtain ⟨h1, h2, h3, h4, h5⟩ := h
  exact ⟨h1.symm, h2.symm, h3.symm, h4.symm, h5.symm⟩

theorem SameRest.setByte {u t : State} (h : SameRest u t) (a : Nat) (v : Byte) :
    SameRest (u.setByte a v) (t.setByte a v) := by
  obtain ⟨hmem, hprogram, hcfg, hdraws, hcondition⟩ := h
  refine ⟨?mem, by simpa, by simpa, by simpa, by simpa⟩
  case mem =>
    unfold State.setByte
    split
    · exact congrArg (·.write a v) hmem
    · exact hmem

/-- Where the application of the entries stands while the writes are at `t` and will end at `s'`: a field that has had
its entry is already what it ends as, every other field and the rest are as in `t` (10_state R39). -/
structure Applying (s' : State) (seen : List Key) (u t : State) : Prop where
  done : ∀ q ∈ seen, q.value u = q.value s'
  waits : ∀ q ∉ seen, q.value u = q.value t
  rest : SameRest u t

section
variable {s' u t : State} {seen : List Key}

theorem Applying.mem (h : Applying s' seen u t) (a : Nat) (v : Byte) :
    Applying s' seen (u.setByte a v) (t.setByte a v) := by
  have hkey : ∀ (q : Key) (y : State), q.value (y.setByte a v) = q.value y := fun q y =>
    Write.value_apply (e := .mem a v) (Option.some_ne_none q).symm y
  exact ⟨fun q hq => (hkey q u).trans (h.done q hq),
    fun q hq => (hkey q u).trans ((h.waits q hq).trans (hkey q t).symm), h.rest.setByte a v⟩

/-- A later write of a field that has had its entry. -/
theorem Applying.later (h : Applying s' seen u t) {e : Write} {k : Key} (he : e.key = some k) (hk : k ∈ seen) :
    Applying s' seen u (e.apply t) := by
  refine ⟨h.done, fun q hq => (h.waits q hq).trans (Write.value_apply ?_ t).symm,
    h.rest.trans (e.sameRest_apply he t).symm⟩
  rw [he]
  rintro ⟨⟩
  exact hq hk

/-- The first write of a field, and its entry. -/
theorem Applying.first (h : Applying s' seen u t) {e : Write} {k : Key} (he : e.key = some k) (b : Nat) :
    Applying s' (k :: seen) ((Entry.field k b (k.value s')).apply u) (e.apply t) := by
  refine ⟨fun q hq => ?done, fun q hq => ?waits,
    ((Entry.sameRest_apply_field k b _ u).trans h.rest).trans (e.sameRest_apply he t).symm⟩
  case done =>
    rw [Entry.value_apply_field]
    split
    next hqk => rw [hqk]
    next hqk => exact h.done q ((List.mem_cons.1 hq).resolve_left hqk)
  case waits =>
    obtain ⟨hqk, hqs⟩ := not_or.1 (List.mem_cons.not.1 hq)
    rw [Entry.value_apply_field, if_neg hqk, h.waits q hqs, Write.value_apply]
    rw [he]
    rintro ⟨⟩
    exact hqk rfl

/-- A write of a field goes to its entry, or to the one it has had. -/
theorem entriesFrom_cons_of_key {e : Write} {k : Key} (he : e.key = some k) (s : State) (ws : List Write) :
    entriesFrom s s' seen t (e :: ws) =
      if k ∈ seen then entriesFrom s s' seen (e.apply t) ws
      else .field k (k.value s) (k.value s') :: entriesFrom s s' (k :: seen) (e.apply t) ws := by
  cases e with
  | ip | reg | reg8 | seg | flag => cases he; rfl
  | mem | draw => cases he

/-- The entries of the writes still to come bring the state to where the writes do. -/
theorem Applying.applyEntries_entriesFrom (s : State) {ws : List Write} (hd : .draw ∉ ws)
    (h : Applying (commit ws t) seen u t) : applyEntries (entriesFrom s (commit ws t) seen t ws) u = commit ws t := by
  induction ws generalizing seen u t with
  | nil =>
    refine State.eq_of_values (fun q => ?_) h.rest
    by_cases hq : q ∈ seen
    · exact h.done q hq
    · exact h.waits q hq
  | cons e ws ih =>
    have hd' : .draw ∉ ws := fun hw => hd (.tail _ hw)
    cases hk : e.key with
    | some k =>
      rw [entriesFrom_cons_of_key hk]
      split
      next hs => exact ih hd' (h.later hk hs)
      next => exact ih hd' (h.first hk _)
    | none =>
      cases e with
      | mem a v => exact ih hd' (h.mem a v)
      | draw => exact absurd (.head ws) hd
      | ip | reg | reg8 | seg | flag => cases hk

end

/-- The diff of writes that draw no undefined flag, applied, is the writes applied (10_state R40). -/
theorem applyEntries_diffEntries (s : State) {ws : List Write} (hd : .draw ∉ ws) :
    applyEntries (diffEntries s ws) s = commit ws s :=
  Applying.applyEntries_entriesFrom s hd ⟨nofun, fun _ _ => rfl, ⟨rfl, rfl, rfl, rfl, rfl⟩⟩

/-- Settles O59: the diff of a kind in `SIMULATED` is that of its rule, and where it is not empty the step is that
diff applied. -/
theorem diffAppliesToTheNextState : Obligations.DiffAppliesToTheNextState := by
  intro s t i k es hu hk hs hes hne ht
  cases hd : ruleDiff i s with
  | error f => simp [stepEntries, stepDiff, hk, hs, hd] at hes
  | ok ws =>
    simp only [stepEntries, stepDiff, hk, hs, hd, if_true, Except.ok.injEq] at hes
    subst hes
    have hdraw : .draw ∉ ws := fun hw => by
      have hwithin := ruleDiff_within hk s
      rw [hd] at hwithin
      exact absurd (hu.symm.trans (hwithin _ hw)) nofun
    rw [applyEntries_diffEntries s hdraw]
    cases ws with
    | nil => exact absurd rfl hne
    | cons e ws => exact Host.Outcome.next.inj ((exec_eq_commit hk hs hd).symm.trans ht)

end Sys2Proof.Machine
end

section
/-! PROOFS. The bytes of the instructions, by the shape of their rows of the opcode map (30_encoding R91 to R93, R97,
R122 to R125). -/

namespace Sys2Proof.Machine

variable {base : Byte} {ext : BitVec 3}

/-- `MODRM_EXT_W`. -/
theorem readsExt {mk : Operand → Instr} (h : ∀ w : Width, ExtRow (base + w.bit) ext (.rm (some w) mk)) :
    ReadsExt base ext mk := fun w _ ho lk rest => by
  obtain ⟨sel, hf, hx⟩ := h w
  exact decodeOne_body lk hf (decodeBody_rm rest hx ho.1 ho.no_override)

/-- `MODRM_W`. -/
theorem readsW {mk : Operand → Operand → Instr} (h : ∀ w : Width, firstByte (base + w.bit) = rowRmReg w mk) :
    ReadsW base mk := fun w reg _ ho lk rest => by
  rw [catalog_eq_regOperand]
  exact decodeOne_body lk (h w)
    (decodeBody_rm (ext := reg) (f := fun op => mk op (regOperand w reg)) rest rfl ho.1 ho.no_override)

/-- `MODRM_DW`. -/
theorem readsDW {mk : Operand → Operand → Instr} (h0 : ∀ w : Width, firstByte (base + w.bit) = rowRmReg w mk)
    (h2 : ∀ w : Width, firstByte (base + 2 + w.bit) = rowRegRm w mk) : ReadsDW base mk := ⟨readsW h0, readsW h2⟩

theorem reads_rmImm8 {b : Byte} {w : Width} {mk : Operand → Imm → Instr} {op : Operand}
    (h : ExtRow b ext (extImm8 w mk)) (ho : Bare w op) (v : Byte) :
    Reads (b :: encodeRm ext op ++ [v]) (mk op (.b v)) := fun lk rest => by
  obtain ⟨sel, hf, hx⟩ := h
  simpa using decodeOne_body lk hf (decodeBody_rmImm8 v rest hx ho.1 ho.no_override)

theorem reads_rmImm16 {b : Byte} {mk : Operand → Imm → Instr} {op : Operand} (h : ExtRow b ext (extImm16 mk))
    (ho : Bare .word op) (v : Word) : Reads (b :: encodeRm ext op ++ [loByte v, hiByte v]) (mk op (.w v)) :=
  fun lk rest => by
    obtain ⟨sel, hf, hx⟩ := h
    simpa using decodeOne_body lk hf (decodeBody_rmImm16 v rest hx ho.1 ho.no_override)

/-- `MODRM_EXT_W_IMM`. -/
theorem readsExtImm {mk : Operand → Imm → Instr} (hb : ExtRow base ext (extImm8 .byte mk))
    (hw : ExtRow (base + 1) ext (extImm16 mk)) : ReadsExtImm base ext mk :=
  fun _ b v => ⟨fun ho => reads_rmImm8 hb ho b, fun ho => reads_rmImm16 hw ho v⟩

/-- `MODRM_EXT_SW_IMM`. -/
theorem readsImmGroup {mk : Operand → Imm → Instr} (h80 : ExtRow 0x80 ext (extImm8 .byte mk))
    (h81 : ExtRow 0x81 ext (extImm16 mk)) (h82 : ExtRow 0x82 ext (extImm8 .byte mk))
    (h83 : ExtRow 0x83 ext (extImm8 .word mk)) : ReadsImmGroup ext mk :=
  ⟨readsExtImm h80 h81, fun _ b => ⟨fun ho => reads_rmImm8 h82 ho b, fun ho => reads_rmImm8 h83 ho b⟩⟩

/-- `ACC_IMM`. -/
theorem readsAcc {mk : Imm → Instr} (hb : firstByte base = .body (.byte fun b => mk (.b b)))
    (hw : firstByte (base + 1) = .body (.word fun v => mk (.w v))) : ReadsAcc base mk :=
  fun b v => ⟨reads_byte hb b, reads_word hw v⟩

theorem eq_code_of_catalog {n : BitVec 3} {r : Reg16} (h : catalog .word n = .reg16 r) : n = r.code := by
  rw [catalog_eq_regOperand, regOperand, Operand.reg16.injEq] at h
  rw [← h, Reg16.code_ofCode]

/-- `OP_REG`. -/
theorem readsReg16 {mk : Reg16 → Instr} (h : ∀ r : Reg16, firstByte (base + r.code.setWidth 8) = rowOp (mk r)) :
    ReadsReg16 base mk := fun n r hn => by
  rw [eq_code_of_catalog hn]
  exact reads_op (h r)

/-! ### The families of the arithmetic and logic kinds -/

theorem reads_add : ReadsDW 0x00 (.addRmReg false) ∧ ReadsImmGroup 0 (.addRmImm false) ∧ ReadsAcc 0x04 .addAccImm :=
  ⟨readsDW (by rintro ⟨⟩ <;> rfl) (by rintro ⟨⟩ <;> rfl),
    readsImmGroup ⟨_, rfl, rfl⟩ ⟨_, rfl, rfl⟩ ⟨_, rfl, rfl⟩ ⟨_, rfl, rfl⟩, readsAcc rfl rfl⟩

theorem reads_adc : ReadsDW 0x10 (.adcRmReg false) ∧ ReadsImmGroup 2 (.adcRmImm false) ∧ ReadsAcc 0x14 .adcAccImm :=
  ⟨readsDW (by rintro ⟨⟩ <;> rfl) (by rintro ⟨⟩ <;> rfl),
    readsImmGroup ⟨_, rfl, rfl⟩ ⟨_, rfl, rfl⟩ ⟨_, rfl, rfl⟩ ⟨_, rfl, rfl⟩, readsAcc rfl rfl⟩

theorem reads_sub : ReadsDW 0x28 (.subRmReg false) ∧ ReadsImmGroup 5 (.subRmImm false) ∧ ReadsAcc 0x2C .subAccImm :=
  ⟨readsDW (by rintro ⟨⟩ <;> rfl) (by rintro ⟨⟩ <;> rfl),
    readsImmGroup ⟨_, rfl, rfl⟩ ⟨_, rfl, rfl⟩ ⟨_, rfl, rfl⟩ ⟨_, rfl, rfl⟩, readsAcc rfl rfl⟩

theorem reads_sbb : ReadsDW 0x18 (.sbbRmReg false) ∧ ReadsImmGroup 3 (.sbbRmImm false) ∧ ReadsAcc 0x1C .sbbAccImm :=
  ⟨readsDW (by rintro ⟨⟩ <;> rfl) (by rintro ⟨⟩ <;> rfl),
    readsImmGroup ⟨_, rfl, rfl⟩ ⟨_, rfl, rfl⟩ ⟨_, rfl, rfl⟩ ⟨_, rfl, rfl⟩, readsAcc rfl rfl⟩

theorem reads_cmp : ReadsDW 0x38 .cmpRmReg ∧ ReadsImmGroup 7 .cmpRmImm ∧ ReadsAcc 0x3C .cmpAccImm :=
  ⟨readsDW (by rintro ⟨⟩ <;> rfl) (by rintro ⟨⟩ <;> rfl),
    readsImmGroup ⟨_, rfl, rfl⟩ ⟨_, rfl, rfl⟩ ⟨_, rfl, rfl⟩ ⟨_, rfl, rfl⟩, readsAcc rfl rfl⟩

theorem reads_and :
    ReadsDW 0x20 (.andRmReg false) ∧ ReadsExtImm 0x80 4 (.andRmImm false) ∧ ReadsAcc 0x24 .andAccImm :=
  ⟨readsDW (by rintro ⟨⟩ <;> rfl) (by rintro ⟨⟩ <;> rfl), readsExtImm ⟨_, rfl, rfl⟩ ⟨_, rfl, rfl⟩, readsAcc rfl rfl⟩

theorem reads_or : ReadsDW 0x08 (.orRmReg false) ∧ ReadsExtImm 0x80 1 (.orRmImm false) ∧ ReadsAcc 0x0C .orAccImm :=
  ⟨readsDW (by rintro ⟨⟩ <;> rfl) (by rintro ⟨⟩ <;> rfl), readsExtImm ⟨_, rfl, rfl⟩ ⟨_, rfl, rfl⟩, readsAcc rfl rfl⟩

theorem reads_xor :
    ReadsDW 0x30 (.xorRmReg false) ∧ ReadsExtImm 0x80 6 (.xorRmImm false) ∧ ReadsAcc 0x34 .xorAccImm :=
  ⟨readsDW (by rintro ⟨⟩ <;> rfl) (by rintro ⟨⟩ <;> rfl), readsExtImm ⟨_, rfl, rfl⟩ ⟨_, rfl, rfl⟩, readsAcc rfl rfl⟩

theorem reads_test_not : ReadsW 0x84 .testRmReg ∧ ReadsExtImm 0xF6 0 .testRmImm ∧ ReadsAcc 0xA8 .testAccImm ∧
    ReadsExt 0xF6 2 (.not false) :=
  ⟨readsW (by rintro ⟨⟩ <;> rfl), readsExtImm ⟨_, rfl, rfl⟩ ⟨_, rfl, rfl⟩, readsAcc rfl rfl,
    readsExt (by rintro ⟨⟩ <;> exact ⟨_, rfl, rfl⟩)⟩

theorem reads_inc_dec_neg : ReadsExt 0xFE 0 (.incRm false) ∧ ReadsExt 0xFE 1 (.decRm false) ∧
    ReadsReg16 0x40 .incReg ∧ ReadsReg16 0x48 .decReg ∧ ReadsExt 0xF6 3 (.neg false) :=
  ⟨readsExt (by rintro ⟨⟩ <;> exact ⟨_, rfl, rfl⟩), readsExt (by rintro ⟨⟩ <;> exact ⟨_, rfl, rfl⟩),
    readsReg16 (by rintro ⟨⟩ <;> rfl), readsReg16 (by rintro ⟨⟩ <;> rfl),
    readsExt (by rintro ⟨⟩ <;> exact ⟨_, rfl, rfl⟩)⟩

end Sys2Proof.Machine
end

section
/-! PROOFS. The step of a record whose diff writes an operand and flags, by what it writes (43_data_transfer R240); and
the arithmetic and logic kinds with it (44_arithmetic, 45_logic_shift). -/

namespace Sys2Proof.Machine

/-! ### A step that writes `ip`, then others -/

/-- The step is the writes after `ip` applied, and then `ip`. -/
theorem execNext_of_writes {i : Instr} {k : Kind} {s : State} {v : Word} {ws : List Write} {x : Touched}
    (hk : recordKind i = some k) (hs : k ∈ s.cfg.simulated) (hr : ruleDiff i s = .ok (.ip v :: ws)) (hip : KeepIp ws)
    (hx : Frame s (commit ws s) x) : ExecNext i s fun t => t = (commit ws s).setIp v ∧ Frame s t x :=
  ⟨_, (exec_eq_commit hk hs hr).trans (congrArg _ (commit_setIp hip s v)), rfl, hx⟩

/-- What an operand holds does not depend on `ip` or on the flags. -/
theorem OperandHolds.of_frame {s t u : State} {w : Width} {op : Operand} {v : Nat} {fs : List Flag}
    (h : OperandHolds s t w op v) (hf : Frame t u (touchFlags fs)) : OperandHolds s u w op v := by
  obtain ⟨hreg, hreg8, -, -, hbyte, -⟩ := hf
  cases op with
  | reg8 r => exact (hreg8 r List.not_mem_nil List.not_mem_nil).trans h
  | reg16 r => exact (hreg r List.not_mem_nil nofun).trans h
  | mem ea =>
    cases w with
    | byte => exact (hbyte _ List.not_mem_nil).trans h
    | word => exact ⟨(hbyte _ List.not_mem_nil).trans h.1, (hbyte _ List.not_mem_nil).trans h.2⟩

theorem operandWrites_keepIp (s : State) (w : Width) (op : Operand) (v : Nat) : KeepIp (operandWrites s w op v) := by
  cases op with
  | reg8 r | reg16 r => simp [KeepIp, operandWrites, Write.key]
  | mem ea => cases w <;> simp [KeepIp, operandWrites, storeBytes, Write.key]

theorem undefTouched_nil (s : State) : undefTouched s [] = [] := by
  unfold undefTouched
  split <;> rfl

/-- The step of a record that writes an operand and then flags. -/
theorem execNext_of_operandWrites {i : Instr} {k : Kind} {s : State} {w : Width} {op : Operand} {v : Nat}
    {ds : List (Flag × Bool)} {us : List Flag} (hk : recordKind i = some k) (hs : k ∈ s.cfg.simulated)
    (hr : ruleDiff i s = .ok (.ip (nextIp i s) :: (operandWrites s w op v ++ flagWrites s ds us)))
    (hd : (ds.map Prod.fst).Nodup) (hm : s.mem.wf = true) (ho : operandOk s w op = true) :
    ExecNext i s fun t => t.ip = nextIp i s ∧ OperandHolds s t w op v ∧ (∀ f b, (f, b) ∈ ds → t.flag f = b) ∧
      Frame s t ((touchOperand s w op).add (touchFlags (ds.map Prod.fst ++ undefTouched s us))) := by
  have hframe := frame_flagWrites s ds us (commit (operandWrites s w op v) s)
  refine (execNext_of_writes hk hs hr ((operandWrites_keepIp s w op v).append (flagWrites_keepIp s ds us))
    (by rw [commit_append]; exact (frame_operandWrites s s w op v).trans hframe)).imp ?_
  rintro t ⟨rfl, hx⟩
  rw [commit_append] at hx ⊢
  exact ⟨rfl, OperandHolds.of_frame (operandWrites_hold s s w op v hm ho) hframe, fun f b hb => flagWrites_flag hd hb _,
    hx⟩

/-- The step of a record that writes an operand alone. -/
theorem moves_of_operandWrites {i : Instr} {k : Kind} {s : State} {w : Width} {op : Operand} {v : Nat}
    (hk : recordKind i = some k) (hs : k ∈ s.cfg.simulated)
    (hr : ruleDiff i s = .ok (.ip (nextIp i s) :: operandWrites s w op v)) (hm : s.mem.wf = true)
    (ho : operandOk s w op = true) : Moves i s w op v := by
  refine (execNext_of_writes hk hs hr (operandWrites_keepIp s w op v) (frame_operandWrites s s w op v)).imp ?_
  rintro t ⟨rfl, hx⟩
  exact ⟨rfl, OperandHolds.of_frame (fs := []) (operandWrites_hold s s w op v hm ho) (Frame.refl _ _), hx⟩

/-! ### The flags of an ALU result -/

theorem AluResult.flagsAll_eq (r : AluResult) (s : State) : r.flagsAll = flagWrites s r.sixFlags [] := by
  unfold flagWrites
  split <;> rfl

theorem AluResult.flagsNoCarry_eq (r : AluResult) (s : State) : r.flagsNoCarry = flagWrites s r.fiveFlags [] := by
  unfold flagWrites
  split <;> rfl

/-! ### Values of operands -/

theorem wordAt_lt (s : State) (a : Nat) : wordAt s a < 65536 := by
  have h0 := (s.byteAt a).isLt
  have h1 := (s.byteAt (a + 1)).isLt
  unfold wordAt
  omega

theorem operandVal_lt {s : State} {w : Width} {op : Operand} (h : op.isAt w = true) :
    operandVal s w op < modulus w := by
  cases op with
  | reg8 r =>
    obtain rfl : w = .byte := by simpa [Operand.isAt] using h
    exact (s.reg8 r).isLt
  | reg16 r =>
    obtain rfl : w = .word := by simpa [Operand.isAt] using h
    exact (s.reg r).isLt
  | mem ea =>
    cases w with
    | byte => exact (s.byteAt _).isLt
    | word => exact wordAt_lt s _

theorem acc_isAt (w : Width) : (acc w).isAt w = true := by cases w <;> rfl

theorem operandOk_acc (s : State) (w : Width) : operandOk s w (acc w) = true := by cases w <;> rfl

/-! ### The templates inside the data memory -/

section
variable {i : Instr} {k : Kind} {s : State} {w : Width} {op : Operand} {src : Except Fault Nat} {b : Nat}

theorem arithDiff_ok (ho : operandOk s w op = true) (hb : src = .ok b) (f : Nat → Nat → AluResult) :
    arithDiff i s w op src f = .ok (.ip (nextIp i s) ::
      (operandWrites s w op (f (operandVal s w op) b).r ++ (f (operandVal s w op) b).flagsAll)) := by
  rw [arithDiff, readOp_ok ho, hb]
  simp [writeOp_ok ho, bind, Except.bind, pure, Except.pure]

theorem compareDiff_ok (ho : operandOk s w op = true) (hb : src = .ok b) :
    compareDiff i s w op src = .ok (.ip (nextIp i s) :: (aluSub w (operandVal s w op) b false).flagsAll) := by
  rw [compareDiff, readOp_ok ho, hb]
  rfl

theorem stepByOneDiff_ok (ho : operandOk s w op = true) (f : Nat → AluResult) :
    stepByOneDiff i s w op f = .ok (.ip (nextIp i s) ::
      (operandWrites s w op (f (operandVal s w op)).r ++ (f (operandVal s w op)).flagsNoCarry)) := by
  rw [stepByOneDiff, readOp_ok ho]
  simp [writeOp_ok ho, bind, Except.bind, pure, Except.pure]

theorem diffNeg_ok {l : Bool} (ho : operandOk s op.width op = true) :
    diffNeg l op s = .ok (.ip (nextIp (.neg l op) s) ::
      (operandWrites s op.width op (aluNeg op.width (operandVal s op.width op)).r ++
        (aluNeg op.width (operandVal s op.width op)).flagsAll)) := by
  rw [diffNeg, readOp_ok ho]
  simp [writeOp_ok ho, bind, Except.bind, pure, Except.pure]

theorem diffNot_ok {l : Bool} (ho : operandOk s op.width op = true) :
    diffNot l op s = .ok (.ip (nextIp (.not l op) s) ::
      operandWrites s op.width op (modulus op.width - 1 - operandVal s op.width op)) := by
  rw [diffNot, readOp_ok ho]
  simp [writeOp_ok ho, bind, Except.bind, pure, Except.pure]

theorem logicDiff_ok (ho : operandOk s w op = true) (hb : src = .ok b) (f : Nat → Nat → Nat) :
    logicDiff i s w op src f = .ok (.ip (nextIp i s) ::
      (operandWrites s w op (f (operandVal s w op) b) ++ logicFlags s w (f (operandVal s w op) b))) := by
  rw [logicDiff, readOp_ok ho, hb]
  simp [writeOp_ok ho, bind, Except.bind, pure, Except.pure]

theorem testDiff_ok (ho : operandOk s w op = true) (hb : src = .ok b) :
    testDiff i s w op src = .ok (.ip (nextIp i s) :: logicFlags s w (operandVal s w op &&& b)) := by
  rw [testDiff, readOp_ok ho, hb]
  rfl

/-! ### ADD and ADC, SUB and SBB, CMP -/

/-- The six flags an ALU result leaves (42_alu_flags R201 to R203). -/
theorem AluResult.flags_of_sixFlags {r : AluResult} {t : State} (h : ∀ f b, (f, b) ∈ r.sixFlags → t.flag f = b) :
    t.flag .CF = r.CF ∧ t.flag .PF = r.PF ∧ t.flag .AF = r.AF ∧ t.flag .ZF = r.ZF ∧ t.flag .SF = r.SF ∧
      t.flag .OF = r.OF := by
  refine ⟨h _ _ ?_, h _ _ ?_, h _ _ ?_, h _ _ ?_, h _ _ ?_, h _ _ ?_⟩ <;> simp [sixFlags, fiveFlags]

theorem sixFlags_nodup (r : AluResult) : (r.sixFlags.map Prod.fst).Nodup := by
  simp [AluResult.sixFlags, AluResult.fiveFlags]

theorem adds_of_arithDiff {c : Bool} (hk : recordKind i = some k) (hs : k ∈ s.cfg.simulated)
    (hr : ruleDiff i s = arithDiff i s w op src fun a b => aluAdd w a b c) (hm : s.mem.wf = true)
    (ho : operandOk s w op = true) (ha : op.isAt w = true) (hsrc : src = .ok b) (hb : b < modulus w) :
    Adds i s w op (operandVal s w op) b c.toNat := by
  rw [arithDiff_ok ho hsrc, AluResult.flagsAll_eq _ s] at hr
  refine (execNext_of_operandWrites hk hs hr (sixFlags_nodup _) hm ho).imp ?_
  rintro t ⟨hip, hop, hflags, hframe⟩
  obtain ⟨hCF, hPF, hAF, hZF, hSF, hOF⟩ := AluResult.flags_of_sixFlags hflags
  rw [undefTouched_nil] at hframe
  refine ⟨hip, hop, ?CF, ?AF, ?OF, resultFlags_of (Nat.mod_lt _ (modulus_pos w)) hSF hZF hPF, hframe⟩
  case CF => rw [hCF]; exact decide_eq_true_iff
  case AF => rw [hAF]; exact decide_eq_true_iff
  case OF => rw [hOF]; exact aluAdd_OF w c (operandVal_lt ha) hb

/-- The six flags of a difference (42_alu_flags R203). -/
theorem subFlags_of {t : State} {a : Nat} {c : Bool} (ha : a < modulus w) (hb : b < modulus w)
    (h : ∀ f v, (f, v) ∈ (aluSub w a b c).sixFlags → t.flag f = v) : SubFlags t w a b c.toNat := by
  obtain ⟨hCF, hPF, hAF, hZF, hSF, hOF⟩ := AluResult.flags_of_sixFlags h
  refine ⟨?CF, ?AF, ?OF, resultFlags_of (reduce_lt w _) hSF hZF hPF⟩
  case CF =>
    rw [hCF]
    exact decide_eq_true_iff.trans (by omega)
  case AF =>
    rw [hAF]
    exact decide_eq_true_iff.trans (by omega)
  case OF => rw [hOF]; exact aluSub_OF w c ha hb

theorem subtracts_of_arithDiff {c : Bool} (hk : recordKind i = some k) (hs : k ∈ s.cfg.simulated)
    (hr : ruleDiff i s = arithDiff i s w op src fun a b => aluSub w a b c) (hm : s.mem.wf = true)
    (ho : operandOk s w op = true) (ha : op.isAt w = true) (hsrc : src = .ok b) (hb : b < modulus w) :
    Subtracts i s w op (operandVal s w op) b c.toNat := by
  rw [arithDiff_ok ho hsrc, AluResult.flagsAll_eq _ s] at hr
  refine (execNext_of_operandWrites hk hs hr (sixFlags_nodup _) hm ho).imp ?_
  rintro t ⟨hip, hop, hflags, hframe⟩
  rw [undefTouched_nil] at hframe
  exact ⟨hip, hop, subFlags_of (operandVal_lt ha) hb hflags, hframe⟩

theorem compares_of_compareDiff (hk : recordKind i = some k) (hs : k ∈ s.cfg.simulated)
    (hr : ruleDiff i s = compareDiff i s w op src) (ho : operandOk s w op = true) (ha : op.isAt w = true)
    (hsrc : src = .ok b) (hb : b < modulus w) :
    ExecNext i s fun t => t.ip = nextIp i s ∧ SubFlags t w (operandVal s w op) b 0 ∧
      Frame s t (touchFlags arithFlags) := by
  rw [compareDiff_ok ho hsrc, AluResult.flagsAll_eq _ s] at hr
  refine (execNext_of_flagWrites (ws := []) hk hs hr nofun (sixFlags_nodup _) (Frame.refl s touchNothing)).imp ?_
  rintro t ⟨hip, -, hflags, hframe⟩
  rw [undefTouched_nil] at hframe
  exact ⟨hip, subFlags_of (c := false) (operandVal_lt ha) hb hflags, hframe⟩

end

/-! ### Well-formed pairs -/

theorem pairDW_isAt {a b : Operand} (h : pairDW a b = true) :
    a.isAt (pairWidth a b) = true ∧ b.isAt (pairWidth a b) = true := by
  obtain ⟨w, ha, hb, -⟩ := isAt_of_pairDW h
  rw [pairWidth_of_isAt ha hb]
  exact ⟨ha, hb⟩

theorem pairW_isAt {a b : Operand} (h : pairW a b = true) :
    a.isAt (pairWidth a b) = true ∧ b.isAt (pairWidth a b) = true := by
  obtain ⟨w, ha, hb, -⟩ := isAt_of_pairW h
  rw [pairWidth_of_isAt ha hb]
  exact ⟨ha, hb⟩

theorem immSW_isAt {op : Operand} {imm : Imm} (h : immSW op imm = true) : op.isAt op.width = true := by
  refine Operand.isAt_width ?_
  simp only [immSW, Bool.or_eq_true, Bool.and_eq_true] at h
  simp only [Operand.isRm, Bool.or_eq_true]
  exact h.imp And.left id

theorem immW_isAt {op : Operand} {imm : Imm} (h : immW op imm = true) : op.isAt op.width = true :=
  immSW_isAt (immSW_of_immW h)

theorem immVal_lt (w : Width) (imm : Imm) : immVal w imm < modulus w := reduce_lt w _

/-! ### The obligations -/

/-- Settles O27: each form is the template of ADD, with the carry of ADC or without. -/
theorem addAndAdcResult : Obligations.AddAndAdcResult := by
  refine ⟨⟨reads_add.1, reads_add.2.1, reads_add.2.2, reads_adc⟩, fun s hm => ⟨fun l op1 op2 h1 h2 => ?rmReg,
    fun l op imm ho => ?rmImm, fun imm => ?accImm⟩⟩
  case rmReg =>
    refine ⟨fun hw hs => ?add, fun hw hs => ?adc⟩ <;> obtain ⟨ha, hb⟩ := pairDW_isAt (Bool.and_eq_true_iff.1 hw).1
    case add => exact adds_of_arithDiff (c := false) rfl hs rfl hm h1 ha (readOp_ok h2) (operandVal_lt hb)
    case adc => exact adds_of_arithDiff rfl hs rfl hm h1 ha (readOp_ok h2) (operandVal_lt hb)
  case rmImm =>
    refine ⟨fun hw hs => ?add, fun hw hs => ?adc⟩ <;> have ha := immSW_isAt (Bool.and_eq_true_iff.1 hw).1
    case add => exact adds_of_arithDiff (c := false) rfl hs rfl hm ho ha rfl (immVal_lt _ imm)
    case adc => exact adds_of_arithDiff rfl hs rfl hm ho ha rfl (immVal_lt _ imm)
  case accImm =>
    have ho := operandOk_acc s imm.width
    exact ⟨fun hs => adds_of_arithDiff (c := false) rfl hs rfl hm ho (acc_isAt _) rfl (immVal_lt _ imm),
      fun hs => adds_of_arithDiff rfl hs rfl hm ho (acc_isAt _) rfl (immVal_lt _ imm)⟩

/-- Settles O28: each form is the template of SUB, with the borrow of SBB or without. -/
theorem subAndSbbResult : Obligations.SubAndSbbResult := by
  refine ⟨⟨reads_sub.1, reads_sub.2.1, reads_sub.2.2, reads_sbb⟩, fun s hm => ⟨fun l op1 op2 h1 h2 => ?rmReg,
    fun l op imm ho => ?rmImm, fun imm => ?accImm⟩⟩
  case rmReg =>
    refine ⟨fun hw hs => ?sub, fun hw hs => ?sbb⟩ <;> obtain ⟨ha, hb⟩ := pairDW_isAt (Bool.and_eq_true_iff.1 hw).1
    case sub => exact subtracts_of_arithDiff (c := false) rfl hs rfl hm h1 ha (readOp_ok h2) (operandVal_lt hb)
    case sbb => exact subtracts_of_arithDiff rfl hs rfl hm h1 ha (readOp_ok h2) (operandVal_lt hb)
  case rmImm =>
    refine ⟨fun hw hs => ?sub, fun hw hs => ?sbb⟩ <;> have ha := immSW_isAt (Bool.and_eq_true_iff.1 hw).1
    case sub => exact subtracts_of_arithDiff (c := false) rfl hs rfl hm ho ha rfl (immVal_lt _ imm)
    case sbb => exact subtracts_of_arithDiff rfl hs rfl hm ho ha rfl (immVal_lt _ imm)
  case accImm =>
    have ho := operandOk_acc s imm.width
    exact ⟨fun hs => subtracts_of_arithDiff (c := false) rfl hs rfl hm ho (acc_isAt _) rfl (immVal_lt _ imm),
      fun hs => subtracts_of_arithDiff rfl hs rfl hm ho (acc_isAt _) rfl (immVal_lt _ imm)⟩

/-- Settles O29: each form is the template of CMP. -/
theorem cmpResult : Obligations.CmpResult := by
  refine ⟨reads_cmp, fun s => ⟨fun op1 op2 hw hs h1 h2 => ?rmReg, fun op imm hw hs ho => ?rmImm,
    fun imm hs => ?accImm⟩⟩
  case rmReg =>
    obtain ⟨ha, hb⟩ := pairDW_isAt hw
    exact compares_of_compareDiff rfl hs rfl h1 ha (readOp_ok h2) (operandVal_lt hb)
  case rmImm => exact compares_of_compareDiff rfl hs rfl ho (immSW_isAt hw) rfl (immVal_lt _ imm)
  case accImm => exact compares_of_compareDiff rfl hs rfl (operandOk_acc s _) (acc_isAt _) rfl (immVal_lt _ imm)

/-! ### INC, DEC and NEG -/

section
variable {i : Instr} {k : Kind} {s : State} {w : Width} {op : Operand}

/-- The five flags an ALU result leaves beside CF. -/
theorem AluResult.flags_of_fiveFlags {r : AluResult} {t : State} (h : ∀ f b, (f, b) ∈ r.fiveFlags → t.flag f = b) :
    t.flag .PF = r.PF ∧ t.flag .AF = r.AF ∧ t.flag .ZF = r.ZF ∧ t.flag .SF = r.SF ∧ t.flag .OF = r.OF := by
  refine ⟨h _ _ ?_, h _ _ ?_, h _ _ ?_, h _ _ ?_, h _ _ ?_⟩ <;> simp [fiveFlags]

/-- INC and DEC, in words of a change by `delta` (42_alu_flags R206). -/
structure StepsBy (w : Width) (a : Nat) (delta : Int) (r : AluResult) : Prop where
  result : r.r = reduce w (a + delta)
  auxiliary : r.AF = true ↔ ¬ (0 ≤ (a % 16 : Nat) + delta ∧ (a % 16 : Nat) + delta < 16)
  overflow : r.OF = true ↔ ¬ FitsSigned w (conv w a + delta)
  szp : r.SF = signBit w r.r ∧ r.ZF = (r.r == 0) ∧ r.PF = parity r.r

theorem conv_zero (w : Width) : conv w 0 = 0 := by cases w <;> rfl

theorem conv_one (w : Width) : conv w 1 = 1 := by cases w <;> rfl

theorem one_lt_modulus (w : Width) : 1 < modulus w := by cases w <;> decide

theorem ofNat_mod_eq_reduce (w : Width) (n : Nat) : n % modulus w = reduce w n := by
  have h := reduce_eq_emod w n
  omega

theorem aluInc_stepsBy {a : Nat} (ha : a < modulus w) : StepsBy w a 1 (aluInc w a) := by
  refine ⟨ofNat_mod_eq_reduce w _, ?auxiliary, ?overflow, rfl, rfl, rfl⟩
  case auxiliary => exact decide_eq_true_iff.trans (by rw [Bool.toNat_false]; omega)
  case overflow => simpa [conv_one, aluInc] using aluAdd_OF w false ha (one_lt_modulus w)

theorem aluDec_stepsBy {a : Nat} (ha : a < modulus w) : StepsBy w a (-1) (aluDec w a) := by
  refine ⟨?result, ?auxiliary, ?overflow, rfl, rfl, rfl⟩
  case result => exact congrArg (reduce w) (by rw [Bool.toNat_false]; omega)
  case auxiliary => exact decide_eq_true_iff.trans (by rw [Bool.toNat_false]; omega)
  case overflow => simpa [conv_one, aluDec, ← Int.sub_eq_add_neg] using aluSub_OF w false ha (one_lt_modulus w)

theorem stepsByOne_of_stepByOneDiff {f : Nat → AluResult} {delta : Int} (hk : recordKind i = some k)
    (hs : k ∈ s.cfg.simulated) (hr : ruleDiff i s = stepByOneDiff i s w op f)
    (hf : StepsBy w (operandVal s w op) delta (f (operandVal s w op))) (hm : s.mem.wf = true)
    (ho : operandOk s w op = true) : StepsByOne i s w op (operandVal s w op) delta := by
  rw [stepByOneDiff_ok ho, AluResult.flagsNoCarry_eq _ s] at hr
  obtain ⟨hres, haux, hover, hsf, hzf, hpf⟩ := hf
  refine (execNext_of_operandWrites hk hs hr (by simp [AluResult.fiveFlags]) hm ho).imp ?_
  rintro t ⟨hip, hop, hflags, hframe⟩
  obtain ⟨hPF, hAF, hZF, hSF, hOF⟩ := AluResult.flags_of_fiveFlags hflags
  rw [undefTouched_nil] at hframe
  rw [hsf] at hSF
  rw [hzf] at hZF
  rw [hpf] at hPF
  rw [hres] at hop hSF hZF hPF
  exact ⟨hip, hop, hAF ▸ haux, hOF ▸ hover, resultFlags_of (reduce_lt w _) hSF hZF hPF, hframe⟩

/-- NEG is the subtraction from 0 (42_alu_flags R207). -/
theorem neg_overflow {a : Nat} (ha : a < modulus w) :
    ¬ FitsSigned w (conv w 0 - conv w a - (false.toNat : Nat)) ↔ a = modulus w / 2 := by
  rw [conv_zero, FitsSigned, conv, Bool.toNat_false]
  cases w <;> rw [modulus] at ha ⊢ <;> split <;> omega

theorem neg_result {l : Bool} (hs : .neg ∈ s.cfg.simulated) (hw : op.isAt op.width = true) (hm : s.mem.wf = true)
    (ho : operandOk s op.width op = true) :
    ExecNext (.neg l op) s fun t => t.ip = nextIp (.neg l op) s ∧
      OperandHolds s t op.width op (reduce op.width (-(operandVal s op.width op : Int))) ∧
      (t.flag .CF = true ↔ operandVal s op.width op ≠ 0) ∧ (t.flag .AF = true ↔ operandVal s op.width op % 16 ≠ 0) ∧
      (t.flag .OF = true ↔ operandVal s op.width op = modulus op.width / 2) ∧
      ResultFlags t op.width (reduce op.width (-(operandVal s op.width op : Int))) ∧
      Frame s t ((touchOperand s op.width op).add (touchFlags arithFlags)) := by
  have hlt : operandVal s op.width op < modulus op.width := operandVal_lt hw
  have hr := diffNeg_ok (l := l) ho
  rw [AluResult.flagsAll_eq _ s] at hr
  refine (execNext_of_operandWrites (i := .neg l op) rfl hs hr (sixFlags_nodup _) hm ho).imp ?_
  rintro t ⟨hip, hop, hflags, hframe⟩
  obtain ⟨hCF, hAF, hOF, hres⟩ := subFlags_of (modulus_pos _) hlt hflags
  have hneg : ((0 : Nat) : Int) - operandVal s op.width op - (false.toNat : Nat) = -(operandVal s op.width op : Int) := by
    rw [Bool.toNat_false]
    omega
  rw [hneg] at hres
  rw [undefTouched_nil] at hframe
  refine ⟨hip, ?op, hCF.trans (by rw [Bool.toNat_false]; omega), hAF.trans (by rw [Bool.toNat_false]; omega),
    hOF.trans (neg_overflow hlt), hres, hframe⟩
  case op => exact hneg ▸ hop

end

/-- Settles O30: INC and DEC are the step by one, at both widths and of a register; NEG is the subtraction from 0. -/
theorem incDecNegResult : Obligations.IncDecNegResult := by
  refine ⟨reads_inc_dec_neg, fun s hm => ⟨fun l op ho => ⟨fun hw hs => ?inc, fun hw hs => ?dec⟩,
    fun r => ⟨fun hs => ?incReg, fun hs => ?decReg⟩, fun l op hw hs ho => ?neg⟩⟩
  case inc =>
    have ha := Operand.isAt_width (Bool.and_eq_true_iff.1 hw).1
    exact stepsByOne_of_stepByOneDiff rfl hs rfl (aluInc_stepsBy (operandVal_lt ha)) hm ho
  case dec =>
    have ha := Operand.isAt_width (Bool.and_eq_true_iff.1 hw).1
    exact stepsByOne_of_stepByOneDiff rfl hs rfl (aluDec_stepsBy (operandVal_lt ha)) hm ho
  case incReg =>
    exact stepsByOne_of_stepByOneDiff (op := .reg16 r) rfl hs rfl (aluInc_stepsBy (s.reg r).isLt) hm rfl
  case decReg =>
    exact stepsByOne_of_stepByOneDiff (op := .reg16 r) rfl hs rfl (aluDec_stepsBy (s.reg r).isLt) hm rfl
  case neg => exact neg_result hs (Operand.isAt_width (Bool.and_eq_true_iff.1 hw).1) hm ho

end Sys2Proof.Machine
end

section
/-! PROOFS. The logic kinds: AND, OR, XOR, TEST and NOT (45_logic_shift R320, R321, R329 to R340). -/

namespace Sys2Proof.Machine

theorem modulus_eq_two_pow (w : Width) : modulus w = 2 ^ (msb w + 1) := by cases w <;> rfl

/-- A function of numbers that is `f` bit by bit, and stays below a power of two. -/
structure Bitwise (f : Bool → Bool → Bool) (g : Nat → Nat → Nat) : Prop where
  testBit : ∀ a b k, (g a b).testBit k = f (a.testBit k) (b.testBit k)
  lt_two_pow : ∀ {a b n}, a < 2 ^ n → b < 2 ^ n → g a b < 2 ^ n

theorem bitwise_and : Bitwise (· && ·) (· &&& ·) := ⟨Nat.testBit_and, fun _ h => Nat.and_lt_two_pow _ h⟩

theorem bitwise_or : Bitwise (· || ·) (· ||| ·) := ⟨Nat.testBit_or, Nat.or_lt_two_pow⟩

theorem bitwise_xor : Bitwise (xor · ·) (· ^^^ ·) := ⟨Nat.testBit_xor, Nat.xor_lt_two_pow⟩

theorem Bitwise.lt_modulus {f : Bool → Bool → Bool} {g : Nat → Nat → Nat} (h : Bitwise f g) {w : Width} {a b : Nat}
    (ha : a < modulus w) (hb : b < modulus w) : g a b < modulus w := by
  rw [modulus_eq_two_pow] at ha hb ⊢
  exact h.lt_two_pow ha hb

/-- The flags `Logic(r, w)` leaves (42_alu_flags R205). -/
theorem logicFlags_of {t : State} {w : Width} {r : Nat} (hr : r < modulus w)
    (h : ∀ f b, (f, b) ∈ [(Flag.CF, false)] ++ szp w r ++ [(.OF, false)] → t.flag f = b) : LogicFlags t w r :=
  ⟨h _ _ (by simp), h _ _ (by simp), resultFlags_of_szp hr fun f b hb => h f b (by simp [hb])⟩

section
variable {i : Instr} {k : Kind} {s : State} {w : Width} {op : Operand} {src : Except Fault Nat} {b : Nat}

theorem combines_of_logicDiff {f : Bool → Bool → Bool} {g : Nat → Nat → Nat} (hg : Bitwise f g)
    (hk : recordKind i = some k) (hs : k ∈ s.cfg.simulated) (hr : ruleDiff i s = logicDiff i s w op src g)
    (hm : s.mem.wf = true) (ho : operandOk s w op = true) (ha : op.isAt w = true) (hsrc : src = .ok b)
    (hb : b < modulus w) : Combines i s w op f (operandVal s w op) b := by
  rw [logicDiff_ok ho hsrc] at hr
  have hlt := hg.lt_modulus (operandVal_lt (s := s) ha) hb
  refine ⟨g (operandVal s w op) b, hlt, fun n _ => hg.testBit _ _ n,
    (execNext_of_operandWrites hk hs hr (by simp [szp]) hm ho).imp ?_⟩
  rintro t ⟨hip, hop, hflags, hframe⟩
  exact ⟨hip, hop, logicFlags_of hlt hflags, hframe⟩

theorem tests_of_testDiff (hk : recordKind i = some k) (hs : k ∈ s.cfg.simulated)
    (hr : ruleDiff i s = testDiff i s w op src) (ho : operandOk s w op = true) (ha : op.isAt w = true)
    (hsrc : src = .ok b) (hb : b < modulus w) : Tests i s w (operandVal s w op) b := by
  rw [testDiff_ok ho hsrc] at hr
  refine (execNext_of_flagWrites (ws := []) hk hs hr nofun (by simp [szp]) (Frame.refl s touchNothing)).imp ?_
  rintro t ⟨hip, -, hflags, hframe⟩
  exact ⟨hip, logicFlags_of (bitwise_and.lt_modulus (operandVal_lt ha) hb) hflags, hframe⟩

end

/-- Settles O37: each form is the template of the logic kinds, with its own function bit by bit. -/
theorem andOrXorResult : Obligations.AndOrXorResult := by
  refine ⟨⟨reads_and.1, reads_and.2.1, reads_and.2.2, reads_or.1, reads_or.2.1, reads_or.2.2, reads_xor⟩, fun s hm =>
    ⟨fun l op1 op2 h1 h2 => ?rmReg, fun l op imm ho => ?rmImm, fun imm => ?accImm⟩⟩
  case rmReg =>
    have hpair {lk} : (pairDW op1 op2 && lk) = true → _ := fun hw => pairDW_isAt (Bool.and_eq_true_iff.1 hw).1
    refine ⟨fun hw hs => ?and, fun hw hs => ?or, fun hw hs => ?xor⟩ <;> obtain ⟨ha, hb⟩ := hpair hw
    case and => exact combines_of_logicDiff bitwise_and rfl hs rfl hm h1 ha (readOp_ok h2) (operandVal_lt hb)
    case or => exact combines_of_logicDiff bitwise_or rfl hs rfl hm h1 ha (readOp_ok h2) (operandVal_lt hb)
    case xor => exact combines_of_logicDiff bitwise_xor rfl hs rfl hm h1 ha (readOp_ok h2) (operandVal_lt hb)
  case rmImm =>
    refine ⟨fun hw hs => ?and, fun hw hs => ?or, fun hw hs => ?xor⟩ <;>
      have ha := immW_isAt (Bool.and_eq_true_iff.1 hw).1
    case and => exact combines_of_logicDiff bitwise_and rfl hs rfl hm ho ha rfl (immVal_lt _ imm)
    case or => exact combines_of_logicDiff bitwise_or rfl hs rfl hm ho ha rfl (immVal_lt _ imm)
    case xor => exact combines_of_logicDiff bitwise_xor rfl hs rfl hm ho ha rfl (immVal_lt _ imm)
  case accImm =>
    have ho := operandOk_acc s imm.width
    have ha := acc_isAt imm.width
    have hb := immVal_lt imm.width imm
    exact ⟨fun hs => combines_of_logicDiff bitwise_and rfl hs rfl hm ho ha rfl hb,
      fun hs => combines_of_logicDiff bitwise_or rfl hs rfl hm ho ha rfl hb,
      fun hs => combines_of_logicDiff bitwise_xor rfl hs rfl hm ho ha rfl hb⟩

/-- A register operand raises nothing. -/
theorem operandOk_of_not_isMem (s : State) (w : Width) {op : Operand} (h : op.isMem = false) :
    operandOk s w op = true := by
  cases op with
  | reg8 | reg16 => rfl
  | mem => cases h

theorem pairW_register {a b : Operand} (h : pairW a b = true) : b.isMem = false := by
  obtain ⟨-, -, -, hb⟩ := isAt_of_pairW h
  exact hb

/-- Settles O38: TEST is the template without the write, NOT the complement with no flag. -/
theorem testAndNotResult : Obligations.TestAndNotResult := by
  refine ⟨reads_test_not, fun s => ⟨fun op1 op2 hw hs h1 => ?rmReg, fun op imm hw hs ho => ?rmImm,
    fun imm hs => ?accImm, fun l op hm hw hs ho => ?not⟩⟩
  case rmReg =>
    obtain ⟨ha, hb⟩ := pairW_isAt hw
    exact tests_of_testDiff rfl hs rfl h1 ha (readOp_ok (operandOk_of_not_isMem s _ (pairW_register hw)))
      (operandVal_lt hb)
  case rmImm => exact tests_of_testDiff rfl hs rfl ho (immW_isAt hw) rfl (immVal_lt _ imm)
  case accImm => exact tests_of_testDiff rfl hs rfl (operandOk_acc s _) (acc_isAt _) rfl (immVal_lt _ imm)
  case not => exact moves_of_operandWrites rfl hs (diffNot_ok ho) hm ho

end Sys2Proof.Machine
end

section
/-! PROOFS. Frames made larger, bytes that later writes keep, and the stack (43_data_transfer R247). -/

namespace Sys2Proof.Machine

/-! ### Frames and bytes -/

/-- A frame of what is touched is one of anything more. -/
theorem Frame.mono {s t : State} {x y : Touched} (h : Frame s t x) (hr : x.regs ⊆ y.regs) (hh : x.halves ⊆ y.halves)
    (hs : x.segs ⊆ y.segs) (hf : x.flags ⊆ y.flags) (hb : x.bytes ⊆ y.bytes) : Frame s t y := by
  obtain ⟨h1, h2, h3, h4, h5, hrest⟩ := h
  exact ⟨fun r a b => h1 r (fun m => a (hr m)) fun q hq => b q (hh hq),
    fun q a b => h2 q (fun m => a (hh m)) fun m => b (hr m), fun r a => h3 r fun m => a (hs m),
    fun f a => h4 f fun m => a (hf m), fun m a => h5 m fun g => a (hb g), hrest⟩

/-- The order of the parts of a frame does not matter. -/
theorem Frame.comm {s t : State} {x y : Touched} (h : Frame s t (x.add y)) : Frame s t (y.add x) := by
  refine h.mono ?_ ?_ ?_ ?_ ?_ <;> simp [Touched.add]

/-- Bytes that a step does not touch stay as they are. -/
theorem BytesHold.of_frame {t u : State} {w : Width} {a v : Nat} {x : Touched} (h : BytesHold t w a v)
    (hf : Frame t u x) (hd : ∀ b ∈ bytesOf w a, b ∉ x.bytes) : BytesHold u w a v := by
  obtain ⟨-, -, -, -, hbyte, -⟩ := hf
  cases w with
  | byte => exact (hbyte a (hd a (.head _))).trans h
  | word =>
    obtain ⟨h0, h1⟩ := h
    exact ⟨(hbyte a (hd a (.head _))).trans h0, (hbyte (a + 1) (hd (a + 1) (.tail _ (.head _)))).trans h1⟩

theorem frame_storeBytes (t : State) (w : Width) (a v : Nat) :
    Frame t (commit (storeBytes w a v) t) (touchBytes (bytesOf w a)) := by
  cases w with
  | byte => exact frame_setByte t _ _
  | word => exact (frame_setByte t _ _).trans (frame_setByte _ _ _)

theorem storeBytes_hold {t : State} {w : Width} {a : Nat} (v : Nat) (hm : t.mem.wf = true)
    (h : accessOk w a = true) : BytesHold (commit (storeBytes w a v) t) w a v := by
  cases w with
  | byte => exact State.setByte_byteAt_same t hm _ (of_decide_eq_true h)
  | word =>
    have ha : a + 1 < memSize := of_decide_eq_true h
    refine ⟨?_, State.setByte_byteAt_same _ (State.setByte_wf t hm _ _) _ ha⟩
    exact (State.setByte_byteAt_other _ _ (by omega)).trans (State.setByte_byteAt_same t hm _ (by omega))

theorem storeBytes_keepIp (w : Width) (a v : Nat) : KeepIp (storeBytes w a v) := by
  cases w <;> simp [KeepIp, storeBytes, Write.key]

/-- The entries of several words, each at its address. -/
def storeWords (l : List (Nat × Nat)) : List Write := l.flatMap fun e => storeBytes .word e.1 e.2

/-- The bytes of several words. -/
def wordsBytes (l : List (Nat × Nat)) : List Nat := l.flatMap fun e => bytesOf .word e.1

/-- No byte of one word is a byte of a later one. -/
def WordsDisjoint (l : List (Nat × Nat)) : Prop :=
  l.Pairwise fun e d => ∀ b ∈ bytesOf .word e.1, b ∉ bytesOf .word d.1

theorem frame_storeWords (l : List (Nat × Nat)) (t : State) :
    Frame t (commit (storeWords l) t) (touchBytes (wordsBytes l)) := by
  induction l generalizing t with
  | nil => exact Frame.refl t _
  | cons e l ih =>
    have h := (frame_storeBytes t .word e.1 e.2).trans (ih (commit (storeBytes .word e.1 e.2) t))
    rw [← commit_append] at h
    exact h

theorem storeWords_keepIp (l : List (Nat × Nat)) : KeepIp (storeWords l) := fun e he => by
  obtain ⟨d, -, hd⟩ := List.mem_flatMap.1 he
  exact storeBytes_keepIp _ _ _ e hd

/-- Words that do not overlap all stand in memory after they are stored. -/
theorem storeWords_hold {l : List (Nat × Nat)} (hl : WordsDisjoint l)
    (ho : ∀ e ∈ l, accessOk .word e.1 = true) {t : State} (hm : t.mem.wf = true) :
    ∀ e ∈ l, BytesHold (commit (storeWords l) t) .word e.1 e.2 := by
  induction l generalizing t with
  | nil => nofun
  | cons e l ih =>
    obtain ⟨hfirst, hrest⟩ := List.pairwise_cons.1 hl
    have hc : commit (storeWords (e :: l)) t = commit (storeWords l) (commit (storeBytes .word e.1 e.2) t) :=
      commit_append _ _ t
    rw [hc]
    refine List.forall_mem_cons.2 ⟨?_, ih hrest (fun d hd => ho d (.tail _ hd)) (commit_wf _ t hm)⟩
    refine (storeBytes_hold e.2 hm (ho e (.head l))).of_frame (frame_storeWords l _) fun b hb hmem => ?_
    obtain ⟨d, hd, hbd⟩ := List.mem_flatMap.1 hmem
    exact hfirst d hd b hb hbd

/-- The step of a record that stores words and then writes registers and flags. -/
theorem execNext_of_storeWords {i : Instr} {k : Kind} {s : State} {v : Word} {l : List (Nat × Nat)}
    {vs : List Write} {x : Touched} (hk : recordKind i = some k) (hs : k ∈ s.cfg.simulated)
    (hr : ruleDiff i s = .ok (.ip v :: (storeWords l ++ vs))) (hvs : KeepIp vs)
    (hx : ∀ t, Frame t (commit vs t) x) (hb : x.bytes = []) (hl : WordsDisjoint l)
    (ho : ∀ e ∈ l, accessOk .word e.1 = true) (hm : s.mem.wf = true) :
    ExecNext i s fun t => (∃ u, t = (commit vs u).setIp v) ∧ (∀ e ∈ l, BytesHold t .word e.1 e.2) ∧
      Frame s t (x.add (touchBytes (wordsBytes l))) := by
  refine (execNext_of_writes hk hs hr ((storeWords_keepIp l).append hvs)
    (by rw [commit_append]; exact ((frame_storeWords l s).trans (hx _)).comm)).imp ?_
  rintro t ⟨rfl, hframe⟩
  rw [commit_append] at hframe ⊢
  refine ⟨⟨_, rfl⟩, fun e he => ?_, hframe⟩
  exact (storeWords_hold hl ho hm e he).of_frame (hx (commit (storeWords l) s)) (by simp [hb])

/-- The bytes of a word are its halves, low one first (20_memory R66). -/
theorem bytesHold_toNat {t : State} {a : Nat} {v : Word} (h : BytesHold t .word a v.toNat) :
    t.byteAt a = loByte v ∧ t.byteAt (a + 1) = hiByte v := by
  rw [← ofNat_toNat_loByte, ← ofNat_toNat_hiByte]
  exact h

/-! ### The stack -/

theorem pushAddr_one (s : State) : pushAddr s 1 = phys (s.seg .ss) (s.reg .sp - 2).toNat := rfl

theorem pushAddr_two (s : State) : pushAddr s 2 = phys (s.seg .ss) (s.reg .sp - 4).toNat := rfl

theorem popAddr_one (s : State) : popAddr s 1 = phys (s.seg .ss) (s.reg .sp).toNat :=
  congrArg (fun v : Word => phys (s.seg .ss) v.toNat) (BitVec.add_zero _)

theorem popAddr_two (s : State) : popAddr s 2 = phys (s.seg .ss) (s.reg .sp + 2).toNat := rfl

theorem spAfterPop_zero (s : State) (k : Nat) :
    spAfterPop s k 0 = .reg .sp (s.reg .sp + BitVec.ofNat 16 (2 * k)) :=
  congrArg (Write.reg .sp) (BitVec.add_zero _)

/-- Where the pushes of one step stand, modulo the size of a segment. -/
theorem pushAddr_emod (s : State) (k : Nat) :
    (pushAddr s k : Int) % 65536 = (16 * (s.seg .ss).toNat + (s.reg .sp).toNat - 2 * k) % 65536 := by
  have h := phys_toNat (s.seg .ss) (s.reg .sp - BitVec.ofNat 16 (2 * k))
  rw [BitVec.toNat_sub, BitVec.toNat_ofNat] at h
  rw [pushAddr, BitVec.toNat_sub, BitVec.toNat_ofNat, h]
  omega

/-- The words two pushes of one step store do not overlap. -/
theorem pushAddr_disjoint (s : State) {j k : Nat} (hj : j ≤ 3) (hk : k ≤ 3) (hne : j ≠ k) :
    ∀ b ∈ bytesOf .word (pushAddr s j), b ∉ bytesOf .word (pushAddr s k) := by
  have h1 := pushAddr_emod s j
  have h2 := pushAddr_emod s k
  simp only [bytesOf, List.mem_cons, List.not_mem_nil, or_false]
  rintro b (rfl | rfl) <;> omega

theorem accessOk_of_pushOk {s : State} {k j : Nat} (h : pushOk s k = true) (hj : j < k) :
    accessOk .word (pushAddr s (j + 1)) = true := List.all_eq_true.1 h j (List.mem_range.2 hj)

theorem accessOk_of_popOk {s : State} {k j : Nat} (h : popOk s k = true) (hj : j < k) :
    accessOk .word (popAddr s (j + 1)) = true := List.all_eq_true.1 h j (List.mem_range.2 hj)

section
variable {i : Instr} {k : Kind} {s : State} {v dest : Word}

/-- A step that stores one word at the new `ss:sp`. -/
theorem execNext_of_push (hk : recordKind i = some k) (hs : k ∈ s.cfg.simulated)
    (hr : ruleDiff i s = .ok (.ip dest :: (storeWords [(pushAddr s 1, v.toNat)] ++ [spAfterPush s 1])))
    (hm : s.mem.wf = true) (ho : accessOk .word (pushAddr s 1) = true) :
    ExecNext i s fun t => t.ip = dest ∧ t.reg .sp = s.reg .sp - 2 ∧ t.byteAt (pushAddr s 1) = loByte v ∧
      t.byteAt (pushAddr s 1 + 1) = hiByte v ∧
      Frame s t ((touchRegs [.sp]).add (touchBytes (bytesOf .word (pushAddr s 1)))) := by
  refine (execNext_of_storeWords hk hs hr (by simp [KeepIp, spAfterPush, Write.key]) (fun t => frame_setReg t .sp _)
    rfl (List.pairwise_singleton _ _) (List.forall_mem_singleton.2 ho) hm).imp ?_
  rintro t ⟨⟨u, rfl⟩, hbytes, hframe⟩
  obtain ⟨hlo, hhi⟩ := bytesHold_toNat (hbytes _ (.head _))
  exact ⟨rfl, by simp [spAfterPush], hlo, hhi, hframe⟩

theorem pushDiff_ok (ho : accessOk .word (pushAddr s 1) = true) :
    pushDiff i s v =
      .ok (.ip (nextIp i s) :: (storeWords [(pushAddr s 1, v.toNat)] ++ [spAfterPush s 1])) := by
  rw [pushDiff, push16_ok ho]
  rfl

theorem callDiff_ok (ho : accessOk .word (pushAddr s 1) = true) :
    callDiff i s dest =
      .ok (.ip dest :: (storeWords [(pushAddr s 1, (nextIp i s).toNat)] ++ [spAfterPush s 1])) := by
  rw [callDiff, push16_ok ho]
  rfl

/-- PUSH of a word (43_data_transfer R249). -/
theorem pushes_of_pushDiff (hk : recordKind i = some k) (hs : k ∈ s.cfg.simulated)
    (hr : ruleDiff i s = pushDiff i s v) (hm : s.mem.wf = true)
    (ho : phys (s.seg .ss) (s.reg .sp - 2).toNat + 1 < memSize) : Pushes i s v := by
  have ho' : accessOk .word (pushAddr s 1) = true := decide_eq_true ho
  have h := execNext_of_push hk hs (hr.trans (pushDiff_ok ho')) hm ho'
  rw [pushAddr_one] at h
  exact h

/-- CALL within a segment (47_control_transfer R366). -/
theorem callsNear_of_callDiff (hk : recordKind i = some k) (hs : k ∈ s.cfg.simulated)
    (hr : ruleDiff i s = callDiff i s dest) (hm : s.mem.wf = true)
    (ho : phys (s.seg .ss) (s.reg .sp - 2).toNat + 1 < memSize) : CallsNear i s dest := by
  have ho' : accessOk .word (pushAddr s 1) = true := decide_eq_true ho
  have h := execNext_of_push hk hs (hr.trans (callDiff_ok ho')) hm ho'
  rw [pushAddr_one] at h
  exact h

end

theorem pushedValue_ok {s : State} {op : Operand} (ho : operandOk s .word op = true) :
    pushedValue s op =
      .ok (if op = .reg16 .sp then s.reg .sp - 2 else BitVec.ofNat 16 (operandVal s .word op)) := by
  rw [pushedValue, readOp_ok ho]
  rfl

/-! ### PUSH and CALL within a segment -/

/-- Settles O21: each form pushes one word, a push of `sp` the decremented one. -/
theorem pushResult : Obligations.PushResult := by
  refine ⟨⟨readsWordRm rfl rfl, readsReg16 (by rintro ⟨⟩ <;> rfl), ?sreg, reads_op rfl⟩, fun s hm hsp =>
    ⟨fun op _ hs ho => ?rm, fun r hs => ?reg, fun sr hs => pushes_of_pushDiff rfl hs rfl hm hsp,
      fun hs => pushes_of_pushDiff rfl hs rfl hm hsp⟩⟩
  case sreg =>
    simp only [segmentCatalog, List.forall_mem_cons, List.not_mem_nil, false_implies, implies_true, and_true]
    exact ⟨reads_op rfl, reads_op rfl, reads_op rfl, reads_op rfl⟩
  case rm =>
    refine pushes_of_pushDiff rfl hs ?_ hm hsp
    rw [ruleDiff, diffPushRm, pushedValue_ok ho]
    rfl
  case reg =>
    have hv : pushedValue s (.reg16 r) = .ok (if r = .sp then s.reg .sp - 2 else s.reg r) := by
      rw [pushedValue_ok (by rfl)]
      simp [operandVal]
    refine pushes_of_pushDiff rfl hs ?_ hm hsp
    rw [ruleDiff, diffPushReg, hv]
    rfl

/-- Settles O45: both forms push the return offset and go to the target. -/
theorem callNearResult : Obligations.CallNearResult := by
  refine ⟨⟨fun d => reads_word rfl d, readsWordRm rfl rfl⟩, fun s hm hsp => ⟨fun disp hs => ?direct,
    fun op _ hs ho => ?indirect⟩⟩
  case direct =>
    have ht : target (.callNear disp) disp.toInt s = s.ip + 3 + disp := by
      rw [target, BitVec.ofInt_toInt]
      rfl
    exact callsNear_of_callDiff rfl hs (congrArg (callDiff (.callNear disp) s) ht) hm hsp
  case indirect =>
    refine callsNear_of_callDiff rfl hs ?_ hm hsp
    rw [ruleDiff, diffCallNearInd, readOp_ok ho]
    rfl

/-! ### CALL to another segment -/

theorem callFarDiff_ok {i : Instr} {s : State} {sg off : Word} (h1 : accessOk .word (pushAddr s 1) = true)
    (h2 : accessOk .word (pushAddr s 2) = true) :
    callFarDiff i s sg off = .ok (.ip off ::
      (storeWords [(pushAddr s 1, (s.seg .cs).toNat), (pushAddr s 2, (nextIp i s).toNat)] ++
        [spAfterPush s 2, .seg .cs sg])) := by
  rw [callFarDiff, push16_ok h1, push16_ok h2]
  rfl

theorem callsFar_of_callFarDiff {i : Instr} {k : Kind} {s : State} {sg off : Word} (hk : recordKind i = some k)
    (hs : k ∈ s.cfg.simulated) (hr : ruleDiff i s = callFarDiff i s sg off) (hm : s.mem.wf = true)
    (h1 : accessOk .word (pushAddr s 1) = true) (h2 : accessOk .word (pushAddr s 2) = true) :
    CallsFar i s sg off := by
  have hdisjoint : WordsDisjoint [(pushAddr s 1, (s.seg .cs).toNat), (pushAddr s 2, (nextIp i s).toNat)] :=
    List.pairwise_pair.2 (pushAddr_disjoint s (by decide) (by decide) (by decide))
  refine (execNext_of_storeWords hk hs (hr.trans (callFarDiff_ok h1 h2)) (by simp [KeepIp, spAfterPush, Write.key])
    (fun t => (frame_setReg t .sp _).trans (frame_setSeg _ .cs sg)) rfl hdisjoint
    (List.forall_mem_cons.2 ⟨h1, List.forall_mem_singleton.2 h2⟩) hm).imp ?_
  rintro t ⟨⟨u, rfl⟩, hbytes, hframe⟩
  obtain ⟨hcs0, hcs1⟩ := bytesHold_toNat (hbytes _ (.head _))
  obtain ⟨hip0, hip1⟩ := bytesHold_toNat (hbytes _ (.tail _ (.head _)))
  rw [pushAddr_one] at hcs0 hcs1
  rw [pushAddr_two] at hip0 hip1
  exact ⟨rfl, by simp, by simp [spAfterPush], hip0, hip1, hcs0, hcs1, hframe⟩

/-- Settles O46: both forms push `cs` and the return offset, at places two apart. -/
theorem callFarResult : Obligations.CallFarResult := by
  refine ⟨⟨fun sg off => reads_far rfl sg off, readsMemOnly rfl rfl⟩, fun s hm h1 h2 => ⟨fun sg off hs => ?direct,
    fun ea _ hs hf => ?indirect⟩⟩
  case direct => exact callsFar_of_callFarDiff rfl hs rfl hm (decide_eq_true h1) (decide_eq_true h2)
  case indirect =>
    refine callsFar_of_callFarDiff rfl hs ?_ hm (decide_eq_true h1) (decide_eq_true h2)
    rw [ruleDiff, diffCallFarInd, readFar_ok hf]
    rfl

/-! ### RET -/

theorem returnDiff_ok {s : State} {n : Word} (h : phys (s.seg .ss) (s.reg .sp).toNat + 1 < memSize) :
    returnDiff s n = .ok [.ip (BitVec.ofNat 16 (wordAt s (phys (s.seg .ss) (s.reg .sp).toNat))),
      .reg .sp (s.reg .sp + 2 + n)] := by
  rw [returnDiff, pop16_ok (by rw [popAddr_one]; exact decide_eq_true h), popAddr_one]
  rfl

theorem returnFarDiff_ok {s : State} {n : Word} (h1 : phys (s.seg .ss) (s.reg .sp).toNat + 1 < memSize)
    (h2 : phys (s.seg .ss) (s.reg .sp + 2).toNat + 1 < memSize) :
    returnFarDiff s n = .ok [.ip (BitVec.ofNat 16 (wordAt s (phys (s.seg .ss) (s.reg .sp).toNat))),
      .seg .cs (BitVec.ofNat 16 (wordAt s (phys (s.seg .ss) (s.reg .sp + 2).toNat))),
      .reg .sp (s.reg .sp + 4 + n)] := by
  rw [returnFarDiff, pop16_ok (by rw [popAddr_one]; exact decide_eq_true h1), popAddr_one,
    pop16_ok (by exact decide_eq_true h2), popAddr_two]
  rfl

/-- Settles O48: each RET pops `ip`, the far ones `cs` too, and moves `sp` past them and the count. -/
theorem retResult : Obligations.RetResult := by
  refine ⟨⟨reads_op rfl, reads_op rfl, fun n => ⟨reads_word rfl n, reads_word rfl n⟩⟩, ?_⟩
  rintro s n _ _ h1 rfl rfl
  refine ⟨fun hs => ?near, fun hs => exec_eq_commit (i := .retNearImm n) rfl hs (returnDiff_ok h1),
    fun h2 => ⟨fun hs => ?far, fun hs => exec_eq_commit (i := .retFarImm n) rfl hs (returnFarDiff_ok h1 h2)⟩⟩
  case near =>
    have h := exec_eq_commit (i := .retNear) rfl hs (returnDiff_ok h1)
    rwa [add_zero (s.reg .sp + 2)] at h
  case far =>
    have h := exec_eq_commit (i := .retFar) rfl hs (returnFarDiff_ok h1 h2)
    rwa [add_zero (s.reg .sp + 4)] at h

end Sys2Proof.Machine
end

section
/-! PROOFS. The data transfers beside the pushes (43_data_transfer R241 to R248, R252 to R256, R262 to R265, R269), the
flags word (10_state R26) and the interrupt kinds (47_control_transfer R400 to R403). -/

namespace Sys2Proof.Machine

/-! ### MOV -/

theorem moveDiff_ok {i : Instr} {s : State} {w : Width} {op : Operand} {src : Except Fault Nat} {v : Nat}
    (ho : operandOk s w op = true) (hv : src = .ok v) :
    moveDiff i s w op src = .ok (.ip (nextIp i s) :: operandWrites s w op v) := by
  rw [moveDiff, hv]
  simp [writeOp_ok ho, bind, Except.bind, pure, Except.pure]

theorem moves_of_moveDiff {i : Instr} {k : Kind} {s : State} {w : Width} {op : Operand} {src : Except Fault Nat}
    {v : Nat} (hk : recordKind i = some k) (hs : k ∈ s.cfg.simulated) (hr : ruleDiff i s = moveDiff i s w op src)
    (hv : src = .ok v) (hm : s.mem.wf = true) (ho : operandOk s w op = true) : Moves i s w op v :=
  moves_of_operandWrites hk hs (hr.trans (moveDiff_ok ho hv)) hm ho

theorem firstByte_movRegImm8 (r : Reg8) :
    firstByte (0xB0 + r.code.setWidth 8) = .body (.byte fun b => .movRegImm (.reg8 r) (.b b)) := by
  cases r <;> rfl

theorem firstByte_movRegImm16 (r : Reg16) :
    firstByte (0xB8 + r.code.setWidth 8) = .body (.word fun v => .movRegImm (.reg16 r) (.w v)) := by
  cases r <;> rfl

theorem reads_movRegImm (n : BitVec 3) (b : Byte) (v : Word) :
    Reads [0xB0 + n.setWidth 8, b] (.movRegImm (catalog .byte n) (.b b)) ∧
      Reads [0xB8 + n.setWidth 8, loByte v, hiByte v] (.movRegImm (catalog .word n) (.w v)) := by
  rw [catalog_eq_regOperand, catalog_eq_regOperand]
  have h8 := firstByte_movRegImm8 (Reg8.ofCode n)
  have h16 := firstByte_movRegImm16 (Reg16.ofCode n)
  rw [Reg8.code_ofCode] at h8
  rw [Reg16.code_ofCode] at h16
  exact ⟨reads_byte h8 b, reads_word h16 v⟩

theorem reads_accMem {b : Byte} {w : Width} {f : Ea → Instr} (h : firstByte b = .body (.accMem w f)) (a : Word) :
    Reads [b, loByte a, hiByte a] (f ⟨.direct, .d16 a, none, some w⟩) := fun lk rest => by
  refine decodeOne_body lk h ?_
  simp [decodeBody, readWord, bind, Except.bind, pure, Except.pure]

theorem exec_movSregRm {s : State} {sr : Sreg} {op : Operand} (hs : .movSregRm ∈ s.cfg.simulated)
    (ho : operandOk s .word op = true) :
    exec (.movSregRm sr op) s = .next ((s.setIp (nextIp (.movSregRm sr op) s)).setSeg sr
      (BitVec.ofNat 16 (operandVal s .word op))) := by
  have hr : ruleDiff (.movSregRm sr op) s =
      .ok [.ip (nextIp (.movSregRm sr op) s), .seg sr (BitVec.ofNat 16 (operandVal s .word op))] := by
    rw [ruleDiff, diffMovSregRm, readOp_ok ho]
    rfl
  exact exec_eq_commit rfl hs hr

/-- Settles O20: six forms are the template of MOV; a move to a segment register writes that register. -/
theorem movResult : Obligations.MovResult := by
  refine ⟨⟨readsDW (by rintro ⟨⟩ <;> rfl) (by rintro ⟨⟩ <;> rfl), readsExtImm ⟨_, rfl, rfl⟩ ⟨_, rfl, rfl⟩,
    reads_movRegImm, fun w a => ?accMem, ?sregRows⟩, fun s hm => ⟨fun dst src _ hs h1 h2 => ?rmReg,
    fun dst imm _ hs ho => ?rmImm, fun dst imm hw hs => ?regImm, fun w ea _ hs ho => ?accFromMem,
    fun w ea _ hs ho => ?memFromAcc, fun dst src _ hs ho => ?rmSreg, fun dst src _ hs ho => ?sregRm⟩⟩
  case accMem => cases w <;> exact ⟨reads_accMem rfl a, reads_accMem rfl a⟩
  case sregRows =>
    simp only [segmentCatalog, List.forall_mem_cons, List.not_mem_nil, false_implies, implies_true, and_true]
    refine ⟨⟨?_, ?_⟩, ⟨?_, ?_⟩, ⟨?_, ?_⟩, ?_, ?_⟩ <;> exact readsWordRm rfl rfl
  case rmReg => exact moves_of_moveDiff rfl hs rfl (readOp_ok h2) hm h1
  case rmImm => exact moves_of_moveDiff rfl hs rfl rfl hm ho
  case regImm =>
    obtain ⟨-, hr⟩ := Bool.and_eq_true_iff.1 hw
    exact moves_of_moveDiff rfl hs rfl rfl hm (operandOk_of_not_isMem s _ (by simpa using hr))
  case accFromMem => exact moves_of_moveDiff rfl hs rfl (readOp_ok ho) hm (operandOk_acc s w)
  case memFromAcc => exact moves_of_moveDiff rfl hs rfl (readOp_ok (operandOk_acc s w)) hm ho
  case rmSreg => exact moves_of_moveDiff rfl hs rfl rfl hm ho
  case sregRm =>
    exact ⟨_, exec_movSregRm hs ho, rfl, Segs.get_set_same _ _ _, (frame_setIp s _).trans (frame_setSeg _ _ _)⟩

/-! ### Operands that later writes keep -/

/-- A write of a register keeps what another operand of the same width holds. -/
theorem OperandHolds.of_register {s t : State} {w : Width} {op r : Operand} {v : Nat} (h : OperandHolds s t w op v)
    (ho : op.isAt w = true) (hr : r.isAt w = true) (hreg : r.isMem = false) (hne : op ≠ r) (u : Nat) :
    OperandHolds s (commit (operandWrites s w r u) t) w op v := by
  cases r with
  | mem => cases hreg
  | reg8 q =>
    obtain rfl : w = .byte := by simpa [Operand.isAt] using hr
    cases op with
    | reg16 => cases ho
    | mem => exact h
    | reg8 p =>
      have hpq : p ≠ q := fun hpq => hne (congrArg _ hpq)
      exact (State.setReg8_reg8 t q p _).trans ((if_neg hpq).trans h)
  | reg16 q =>
    obtain rfl : w = .word := by simpa [Operand.isAt] using hr
    cases op with
    | reg8 => cases ho
    | mem => exact h
    | reg16 p =>
      have hpq : p ≠ q := fun hpq => hne (congrArg _ hpq)
      exact (State.setReg_reg t q p _).trans ((if_neg hpq).trans h)

/-! ### POP -/

section
variable {i : Instr} {k : Kind} {s : State}

theorem popDiff_sp (ho : accessOk .word (popAddr s 1) = true) :
    popDiff i s (.reg16 .sp) =
      .ok [.ip (nextIp i s), .reg .sp (BitVec.ofNat 16 (wordAt s (popAddr s 1)))] := by
  rw [popDiff, pop16_ok ho]
  rfl

/-- The entry of `sp` after a pop, as a write of the operand. -/
theorem operandWrites_sp (s : State) :
    operandWrites s .word (.reg16 .sp) (s.reg .sp + 2).toNat = [spAfterPop s 1 0] := by
  rw [operandWrites, BitVec.ofNat_toNat, BitVec.setWidth_eq, spAfterPop_zero]
  rfl

theorem popDiff_ok {op : Operand} (hp : accessOk .word (popAddr s 1) = true) (ho : operandOk s .word op = true)
    (hne : op ≠ .reg16 .sp) :
    popDiff i s op = .ok (.ip (nextIp i s) ::
      (operandWrites s .word op (wordAt s (popAddr s 1)) ++
        operandWrites s .word (.reg16 .sp) (s.reg .sp + 2).toNat)) := by
  have hv : (BitVec.ofNat 16 (wordAt s (popAddr s 1))).toNat = wordAt s (popAddr s 1) :=
    Nat.mod_eq_of_lt (wordAt_lt s _)
  rw [popDiff, pop16_ok hp, operandWrites_sp]
  simp [writeOp_ok ho, hne, hv, bind, Except.bind, pure, Except.pure]

/-- POP into an operand (43_data_transfer R252). -/
theorem pops_of_popDiff {op : Operand} (hk : recordKind i = some k) (hs : k ∈ s.cfg.simulated)
    (hr : ruleDiff i s = popDiff i s op) (hm : s.mem.wf = true) (ha : op.isAt .word = true)
    (ho : operandOk s .word op = true) (hp : phys (s.seg .ss) (s.reg .sp).toNat + 1 < memSize) :
    ExecNext i s fun t => t.ip = nextIp i s ∧
      OperandHolds s t .word op (wordAt s (phys (s.seg .ss) (s.reg .sp).toNat)) ∧
      (op ≠ .reg16 .sp → t.reg .sp = s.reg .sp + 2) ∧
      Frame s t ((touchRegs [.sp]).add (touchOperand s .word op)) := by
  rw [← popAddr_one] at hp ⊢
  by_cases hsp : op = .reg16 .sp
  case pos =>
    subst hsp
    refine ⟨_, exec_eq_commit hk hs (hr.trans (popDiff_sp (decide_eq_true hp))), rfl, ?_, fun h => absurd rfl h,
      (frame_setReg (s.setIp _) .sp _).mono (by simp [Touched.add, touchRegs, touchOperand])
        (List.nil_subset _) (List.nil_subset _) (List.nil_subset _) (List.nil_subset _)⟩
    simp [OperandHolds]
  case neg =>
    rw [popDiff_ok (decide_eq_true hp) ho hsp] at hr
    refine (execNext_of_writes hk hs hr ((operandWrites_keepIp s _ _ _).append (operandWrites_keepIp s _ _ _))
      (by rw [commit_append]; exact ((frame_operandWrites s s _ op _).trans (frame_setReg _ .sp _)).comm)).imp ?_
    rintro t ⟨rfl, hx⟩
    rw [commit_append] at hx ⊢
    have hholds := (operandWrites_hold s s .word op (wordAt s (popAddr s 1)) hm ho).of_register ha
      (r := .reg16 .sp) rfl rfl hsp (s.reg .sp + 2).toNat
    rw [operandWrites_sp, spAfterPop_zero] at hx hholds ⊢
    exact ⟨rfl, hholds.of_frame (fs := []) (Frame.refl _ _), fun _ => by simp, hx⟩

/-- A flag written from a word read in memory holds its bit of the word (10_state R26). -/
theorem flagPlaces_of_flagsFrom (n : Nat) (t : State) :
    ∀ e ∈ flagPlaces, (commit (flagsFrom Flag.all (BitVec.ofNat 16 n)) t).flag e.1 = n.testBit e.2 := by
  simp [flagPlaces, flagsFrom_all, Flag.bit, BitVec.getLsbD_ofNat]

theorem flagsFrom_keepIp (fs : List Flag) (v : Word) : KeepIp (flagsFrom fs v) := fun e he => by
  obtain ⟨f, -, rfl⟩ := List.mem_map.1 he
  nofun

theorem flagsFrom_reg (fs : List Flag) (v : Word) (t : State) (r : Reg16) :
    (commit (flagsFrom fs v) t).reg r = t.reg r := by
  obtain ⟨hreg, -⟩ := frame_flagsFrom fs v t
  exact hreg r List.not_mem_nil fun _ h => absurd h List.not_mem_nil

theorem flagsFrom_seg (fs : List Flag) (v : Word) (t : State) (r : Sreg) :
    (commit (flagsFrom fs v) t).seg r = t.seg r := by
  obtain ⟨-, -, hseg, -⟩ := frame_flagsFrom fs v t
  exact hseg r List.not_mem_nil

theorem popf_result (hs : .popf ∈ s.cfg.simulated) (hp : accessOk .word (popAddr s 1) = true) :
    ExecNext .popf s fun t => t.ip = nextIp .popf s ∧ t.reg .sp = s.reg .sp + 2 ∧
      (∀ e ∈ flagPlaces, t.flag e.1 = (wordAt s (popAddr s 1)).testBit e.2) ∧
      Frame s t ((touchRegs [.sp]).add (touchFlags Flag.all)) := by
  have hr : ruleDiff .popf s = .ok (.ip (nextIp .popf s) :: ([.reg .sp (s.reg .sp + 2)] ++
      flagsFrom Flag.all (BitVec.ofNat 16 (wordAt s (popAddr s 1))))) := by
    rw [ruleDiff, diffPopf, pop16_ok hp, spAfterPop_zero]
    rfl
  have hflags := frame_flagsFrom Flag.all (BitVec.ofNat 16 (wordAt s (popAddr s 1))) (s.setReg .sp (s.reg .sp + 2))
  refine (execNext_of_writes (i := .popf) rfl hs hr
    (KeepIp.append (by simp [KeepIp, Write.key]) (flagsFrom_keepIp _ _))
    (by rw [commit_append]; exact (frame_setReg s .sp _).trans hflags)).imp ?_
  rintro t ⟨rfl, hx⟩
  rw [commit_append] at hx ⊢
  refine ⟨rfl, ?sp, fun e he => ?flags, hx⟩
  case sp => rw [State.setIp_reg, flagsFrom_reg, commit_cons, commit_nil, Write.apply_reg, State.setReg_reg, if_pos rfl]
  case flags =>
    rw [State.setIp_flag]
    exact flagPlaces_of_flagsFrom _ _ e he

end

/-- Settles O22: POP into an operand, a register of any kind, and the flags. -/
theorem popResult : Obligations.PopResult := by
  refine ⟨⟨readsWordRm rfl rfl, readsReg16 (by rintro ⟨⟩ <;> rfl), ?sregRows, reads_op rfl⟩, fun s hm hp =>
    ⟨fun op hw hs ho => pops_of_popDiff rfl hs rfl hm hw ho hp,
      fun r hs => (pops_of_popDiff (op := .reg16 r) rfl hs rfl hm rfl rfl hp).imp ?reg, fun sr _ hs => ?sreg,
      fun hs => ?popf⟩⟩
  case sregRows =>
    simp only [segmentCatalog, List.forall_mem_cons, List.not_mem_nil, false_implies, implies_true, and_true]
    exact ⟨fun _ => reads_op rfl, fun h => absurd rfl h, fun _ => reads_op rfl, fun _ => reads_op rfl⟩
  case reg =>
    rintro t ⟨hip, hop, hsp, hframe⟩
    exact ⟨hip, hop, fun h => hsp (by simpa using h), hframe⟩
  case sreg =>
    have hr : ruleDiff (.popSreg sr) s = .ok [.ip (nextIp (.popSreg sr) s),
        .seg sr (BitVec.ofNat 16 (wordAt s (phys (s.seg .ss) (s.reg .sp).toNat))), .reg .sp (s.reg .sp + 2)] := by
      rw [ruleDiff, diffPopSreg, pop16_ok (by rw [popAddr_one]; exact decide_eq_true hp), popAddr_one,
        spAfterPop_zero]
      rfl
    exact ⟨_, exec_eq_commit rfl hs hr, rfl, by simp, by simp,
      ((frame_setSeg (s.setIp _) sr _).trans (frame_setReg _ .sp _)).comm⟩
  case popf =>
    rw [← popAddr_one] at hp ⊢
    exact popf_result hs (decide_eq_true hp)

/-! ### XCHG -/

section
variable {i : Instr} {k : Kind} {s : State} {w : Width} {op1 op2 : Operand}

theorem exchangeDiff_ok (h1 : operandOk s w op1 = true) (h2 : operandOk s w op2 = true) :
    exchangeDiff i s w op1 op2 = .ok (.ip (nextIp i s) ::
      (operandWrites s w op1 (operandVal s w op2) ++ operandWrites s w op2 (operandVal s w op1))) := by
  rw [exchangeDiff, readOp_ok h1, readOp_ok h2]
  simp [writeOp_ok h1, writeOp_ok h2, bind, Except.bind, pure, Except.pure]

/-- An operand and a register exchanged; the same register twice is as before (43_data_transfer R255). -/
theorem exchanges_of_exchangeDiff (hk : recordKind i = some k) (hs : k ∈ s.cfg.simulated)
    (hr : ruleDiff i s = exchangeDiff i s w op1 op2) (hm : s.mem.wf = true) (ha : op1.isAt w = true)
    (hb : op2.isAt w = true) (hreg : op2.isMem = false) (h1 : operandOk s w op1 = true) :
    ExecNext i s fun t => t.ip = nextIp i s ∧ OperandHolds s t w op1 (operandVal s w op2) ∧
      OperandHolds s t w op2 (operandVal s w op1) ∧
      Frame s t ((touchOperand s w op1).add (touchOperand s w op2)) := by
  have h2 := operandOk_of_not_isMem s w hreg
  rw [exchangeDiff_ok h1 h2] at hr
  refine (execNext_of_writes hk hs hr ((operandWrites_keepIp s _ _ _).append (operandWrites_keepIp s _ _ _))
    (by rw [commit_append]; exact (frame_operandWrites s s _ op1 _).trans (frame_operandWrites s _ _ op2 _))).imp ?_
  rintro t ⟨rfl, hx⟩
  rw [commit_append] at hx ⊢
  have hfirst := operandWrites_hold s s w op1 (operandVal s w op2) hm h1
  have hsecond := operandWrites_hold s (commit (operandWrites s w op1 (operandVal s w op2)) s) w op2
    (operandVal s w op1) (commit_wf _ s hm) h2
  refine ⟨rfl, OperandHolds.of_frame (fs := []) ?_ (Frame.refl _ _), hsecond.of_frame (fs := []) (Frame.refl _ _), hx⟩
  by_cases hne : op1 = op2
  · subst hne
    exact hsecond
  · exact hfirst.of_register ha hb hreg hne _

end

/-- Settles O23: both forms exchange an operand with a register. -/
theorem xchgResult : Obligations.XchgResult := by
  refine ⟨⟨readsW (by rintro ⟨⟩ <;> rfl), readsReg16 (by rintro ⟨⟩ <;> rfl)⟩, fun s hm =>
    ⟨fun l op1 op2 hw hs h1 => ?rmReg, fun r hs => ?accReg⟩⟩
  case rmReg =>
    have hp := (Bool.and_eq_true_iff.1 hw).1
    obtain ⟨ha, hb⟩ := pairW_isAt hp
    exact exchanges_of_exchangeDiff rfl hs rfl hm ha hb (pairW_register hp) h1
  case accReg =>
    refine (exchanges_of_exchangeDiff (w := .word) (op1 := .reg16 .ax) (op2 := .reg16 r) rfl hs rfl hm rfl rfl rfl
      rfl).imp ?_
    rintro t ⟨hip, hax, hr, hframe⟩
    simp only [OperandHolds, operandVal, BitVec.ofNat_toNat, BitVec.setWidth_eq] at hax hr
    exact ⟨hip, hax, hr, hframe⟩

/-! ### XLAT, LEA, LDS and LES -/

/-- The offset of XLAT in numbers (43_data_transfer R262). -/
theorem xlat_offset (s : State) :
    (s.reg .bx + (s.reg8 .al).setWidth 16).toNat = ((s.reg .bx).toNat + (s.reg8 .al).toNat) % 65536 := by
  have h := (s.reg8 .al).isLt
  rw [BitVec.toNat_add, BitVec.toNat_setWidth, Nat.mod_eq_of_lt (a := (s.reg8 .al).toNat) (by omega)]

theorem loadFarDiff_ok {i : Instr} {s : State} {r : Reg16} {sr : Sreg} {ea : Ea} (hf : farOk s ea = true) :
    loadFarDiff i s r sr ea = .ok [.ip (nextIp i s), .reg r (BitVec.ofNat 16 (wordAt s (eaPhys s ea))),
      .seg sr (BitVec.ofNat 16 (wordAt s (eaPhys s ea + 2)))] := by
  rw [loadFarDiff, readFar_ok hf]
  rfl

/-- LDS and LES (43_data_transfer R264, R265). -/
theorem loads_of_loadFarDiff {i : Instr} {k : Kind} {s : State} {r : Reg16} {sr : Sreg} {ea : Ea}
    (hk : recordKind i = some k) (hs : k ∈ s.cfg.simulated) (hr : ruleDiff i s = loadFarDiff i s r sr ea)
    (hf : farOk s ea = true) :
    ExecNext i s fun t => t.ip = nextIp i s ∧ t.reg r = BitVec.ofNat 16 (wordAt s (eaPhys s ea)) ∧
      t.seg sr = BitVec.ofNat 16 (wordAt s (eaPhys s ea + 2)) ∧ Frame s t ((touchRegs [r]).add (touchSegs [sr])) :=
  ⟨_, exec_eq_commit hk hs (hr.trans (loadFarDiff_ok hf)), rfl, Regs.get_set_same _ _ _, Segs.get_set_same _ _ _,
    (frame_setReg (s.setIp _) r _).trans (frame_setSeg _ sr _)⟩

/-- Settles O24: what each of the four loads, and from where. -/
theorem xlatLeaLdsLesResult : Obligations.XlatLeaLdsLesResult := by
  refine ⟨⟨reads_op rfl, fun n r hn => ?rows⟩, fun s => ⟨fun hs => ?xlat, fun r ea _ hs => ?lea, fun r ea hf =>
    ⟨fun _ hs => loads_of_loadFarDiff rfl hs rfl hf, fun _ hs => loads_of_loadFarDiff rfl hs rfl hf⟩⟩⟩
  case rows =>
    rw [eq_code_of_catalog hn]
    exact ⟨readsMemOnly rfl (congrArg (fun q => Ext.memOnly (Instr.lea q)) (Reg16.ofCode_code r)),
      readsMemOnly rfl (congrArg (fun q => Ext.memOnly (Instr.lds q)) (Reg16.ofCode_code r)),
      readsMemOnly rfl (congrArg (fun q => Ext.memOnly (Instr.les q)) (Reg16.ofCode_code r))⟩
  case xlat =>
    rw [← xlat_offset]
    have hr : ruleDiff .xlat s = .ok [.ip (nextIp .xlat s),
        .reg8 .al (s.byteAt (phys (s.seg .ds) (s.reg .bx + (s.reg8 .al).setWidth 16).toNat))] := by
      rw [ruleDiff, diffXlat, memRead_ok (accessOk_byte_phys _ _)]
      simp [valueAt, bind, Except.bind, pure, Except.pure]
    exact ⟨_, exec_eq_commit rfl hs hr, rfl, by rw [commit_cons, commit_cons, commit_nil, Write.apply_reg8,
      State.setReg8_reg8, if_pos rfl], (frame_setIp s _).trans (frame_setReg8 _ .al _)⟩
  case lea =>
    exact ⟨_, exec_eq_commit rfl hs rfl, rfl, Regs.get_set_same _ _ _, (frame_setIp s _).trans (frame_setReg _ r _)⟩

end Sys2Proof.Machine
end

section
/-! PROOFS. The flags word (10_state R26), and the interrupt kinds and ESC in a model that simulates them
(47_control_transfer R400 to R403, 48_processor_control R419). -/

namespace Sys2Proof

theorem Flag.bit_lt (f : Flag) : f.bit < 16 := by cases f <;> decide

theorem Flag.mem_all (f : Flag) : f ∈ Flag.all := by cases f <;> decide

theorem Flag.bit_injective : Function.Injective Flag.bit := fun f g h =>
  have hall : ∀ f ∈ Flag.all, ∀ g ∈ Flag.all, f.bit = g.bit → f = g := by decide
  hall f f.mem_all g g.mem_all h

end Sys2Proof

namespace Sys2Proof.Machine

/-! ### The flags word -/

theorem flagPlaces_bit : ∀ e ∈ flagPlaces, e.2 = e.1.bit := by decide

theorem mem_flagPlaces (f : Flag) : (f, f.bit) ∈ flagPlaces := by cases f <;> decide

theorem getLsbD_one_shiftLeft (f : Flag) (k : Nat) : (1#16 <<< f.bit).getLsbD k = decide (f.bit = k) := by
  have hf := f.bit_lt
  rw [BitVec.getLsbD_shiftLeft, BitVec.getLsbD_one, Bool.eq_iff_iff]
  simp only [Bool.and_eq_true, Bool.not_eq_true', decide_eq_true_eq, decide_eq_false_iff_not]
  omega

/-- A bit of the word the flags are gathered into: it was set, or is that of a flag that is 1. -/
theorem getLsbD_foldl_flags (s : State) (fs : List Flag) (a : Word) (k : Nat) :
    (fs.foldl (fun acc f => if s.flag f then acc ||| (1#16 <<< f.bit) else acc) a).getLsbD k = true ↔
      a.getLsbD k = true ∨ ∃ f ∈ fs, s.flag f = true ∧ f.bit = k := by
  induction fs generalizing a with
  | nil => simp
  | cons f fs ih =>
    rw [List.foldl_cons, ih, List.exists_mem_cons_iff, ← or_assoc]
    refine or_congr_left ?_
    cases s.flag f with
    | false => simp
    | true => simp only [if_true, BitVec.getLsbD_or, getLsbD_one_shiftLeft, Bool.or_eq_true, decide_eq_true_eq, true_and]

theorem getLsbD_flagMask (f : Flag) : flagMask.getLsbD f.bit = true := by cases f <;> decide

theorem getLsbD_flagMask_other {k : Nat} (h : ∀ f : Flag, f.bit ≠ k) : flagMask.getLsbD k = false := by
  by_cases hk : k < 16
  · have hall : ∀ j < 16, flagMask.getLsbD j = true → ∃ f ∈ Flag.all, f.bit = j := by decide
    refine Bool.eq_false_iff.2 fun ht => ?_
    obtain ⟨f, -, hf⟩ := hall k hk ht
    exact h f hf
  · exact BitVec.getLsbD_of_ge _ _ (Nat.le_of_not_lt hk)

theorem getLsbD_flagsWord (s : State) (f : Flag) : (flagsWord s).getLsbD f.bit = s.flag f := by
  rw [Bool.eq_iff_iff, flagsWord, getLsbD_foldl_flags, BitVec.getLsbD_and, BitVec.getLsbD_not, getLsbD_flagMask]
  constructor
  · rintro (h | ⟨g, -, hg, hb⟩)
    · simp at h
    · rwa [← Flag.bit_injective hb]
  · exact fun h => .inr ⟨f, f.mem_all, h, rfl⟩

theorem getLsbD_flagsWord_other (s : State) {k : Nat} (h : ∀ f : Flag, f.bit ≠ k) :
    (flagsWord s).getLsbD k = s.cfg.flagFill.getLsbD k := by
  rw [Bool.eq_iff_iff, flagsWord, getLsbD_foldl_flags, BitVec.getLsbD_and, BitVec.getLsbD_not,
    getLsbD_flagMask_other h]
  constructor
  · rintro (hk | ⟨f, -, -, hb⟩)
    · exact (Bool.and_eq_true_iff.1 hk).1
    · exact absurd hb (h f)
  · intro hk
    have hlt : k < 16 := by
      by_contra hge
      rw [BitVec.getLsbD_of_ge _ _ (Nat.le_of_not_lt hge)] at hk
      cases hk
    exact .inl (by simp [hk, hlt])

/-- Settles O25: the nine bits are the flags', every other bit is that of `FLAG_FILL`. -/
theorem flagsWordBits : Obligations.FlagsWordBits := by
  refine ⟨fun f => ⟨_, mem_flagPlaces f, rfl⟩, fun s => ⟨fun e he => ?bits, fun k hk => ?others,
    fun f b => ⟨fun g => State.setFlag_flag s f g b, rfl⟩⟩⟩
  case bits => rw [flagPlaces_bit e he, getLsbD_flagsWord]
  case others =>
    refine getLsbD_flagsWord_other s ?_
    rintro f rfl
    exact hk (List.mem_map_of_mem (mem_flagPlaces f))

/-! ### The software interrupt -/

section
variable {i : Instr} {k : Kind} {s : State} {type : Byte}

/-- The words a software interrupt pushes, in order (47_control_transfer R400). -/
def interruptWords (i : Instr) (s : State) : List (Nat × Nat) :=
  [(pushAddr s 1, (flagsWord s).toNat), (pushAddr s 2, (s.seg .cs).toNat), (pushAddr s 3, (nextIp i s).toNat)]

theorem softInterrupt_ok (h : pushOk s 3 = true) : softInterrupt i type s =
    .ok (.ip (BitVec.ofNat 16 (wordAt s (4 * type.toNat))) :: (storeWords (interruptWords i s) ++
      [.reg .sp (s.reg .sp - 6), .seg .cs (BitVec.ofNat 16 (wordAt s (4 * type.toNat + 2))), .flag .IF false,
        .flag .TF false])) := by
  have ht := type.isLt
  have hip : accessOk .word (4 * type.toNat) = true := decide_eq_true (by rw [memSize]; omega)
  have hcs : accessOk .word (4 * type.toNat + 2) = true := decide_eq_true (by rw [memSize]; omega)
  rw [softInterrupt, push16_ok (accessOk_of_pushOk h (j := 0) (by decide)),
    push16_ok (accessOk_of_pushOk h (j := 1) (by decide)), push16_ok (accessOk_of_pushOk h (j := 2) (by decide)),
    memRead_ok hip, memRead_ok hcs]
  rfl

theorem interrupts_of_softInterrupt (hk : recordKind i = some k) (hs : k ∈ s.cfg.simulated)
    (hr : ruleDiff i s = softInterrupt i type s) (hm : s.mem.wf = true) (h : pushOk s 3 = true) :
    Interrupts i s type.toNat := by
  have hdisjoint : WordsDisjoint (interruptWords i s) := by
    refine List.pairwise_cons.2 ⟨List.forall_mem_cons.2 ⟨?_, List.forall_mem_singleton.2 ?_⟩, List.pairwise_pair.2 ?_⟩
    all_goals exact pushAddr_disjoint s (by decide) (by decide) (by decide)
  have haccess : ∀ e ∈ interruptWords i s, accessOk .word e.1 = true :=
    List.forall_mem_cons.2 ⟨accessOk_of_pushOk h (j := 0) (by decide), List.forall_mem_cons.2
      ⟨accessOk_of_pushOk h (j := 1) (by decide), List.forall_mem_singleton.2 (accessOk_of_pushOk h (by decide))⟩⟩
  refine (execNext_of_storeWords hk hs (hr.trans (softInterrupt_ok h)) (by simp [KeepIp, Write.key])
    (fun t => ((frame_setReg t .sp _).trans (frame_setSeg _ .cs _)).trans
      ((frame_setFlag _ .IF _).trans (frame_setFlag _ .TF _))) rfl hdisjoint haccess hm).imp ?_
  rintro t ⟨⟨u, rfl⟩, hbytes, hframe⟩
  exact ⟨rfl, by simp, by simp, by simp, by simp, hbytes _ (.head _), hbytes _ (.tail _ (.head _)),
    hbytes _ (.tail _ (.tail _ (.head _))), hframe⟩

/-! ### The return from an interrupt -/

theorem interruptReturn_ok (h : popOk s 3 = true) : interruptReturn s =
    .ok (.ip (BitVec.ofNat 16 (wordAt s (popAddr s 1))) ::
      ([.seg .cs (BitVec.ofNat 16 (wordAt s (popAddr s 2))), .reg .sp (s.reg .sp + 6)] ++
        flagsFrom Flag.all (BitVec.ofNat 16 (wordAt s (popAddr s 3))))) := by
  rw [interruptReturn, pop16_ok (accessOk_of_popOk h (j := 0) (by decide)),
    pop16_ok (accessOk_of_popOk h (j := 1) (by decide)), pop16_ok (accessOk_of_popOk h (j := 2) (by decide)),
    spAfterPop_zero]
  rfl

theorem iret_result (hs : .iret ∈ s.cfg.simulated) (h : popOk s 3 = true) :
    ExecNext .iret s fun t => t.ip = BitVec.ofNat 16 (wordAt s (popAddr s 1)) ∧
      t.seg .cs = BitVec.ofNat 16 (wordAt s (popAddr s 2)) ∧ t.reg .sp = s.reg .sp + 6 ∧
      (∀ e ∈ flagPlaces, t.flag e.1 = (wordAt s (popAddr s 3)).testBit e.2) ∧
      Frame s t (((touchRegs [.sp]).add (touchSegs [.cs])).add (touchFlags Flag.all)) := by
  refine (execNext_of_writes (i := .iret) rfl hs (interruptReturn_ok h)
    (KeepIp.append (by simp [KeepIp, Write.key]) (flagsFrom_keepIp _ _))
    (by rw [commit_append]
        exact ((frame_setSeg s .cs _).trans (frame_setReg _ .sp _)).comm.trans (frame_flagsFrom _ _ _))).imp ?_
  rintro t ⟨rfl, hx⟩
  rw [commit_append] at hx ⊢
  refine ⟨rfl, ?cs, ?sp, fun e he => ?flags, hx⟩
  case cs => rw [State.setIp_seg, flagsFrom_seg]; simp
  case sp => rw [State.setIp_reg, flagsFrom_reg]; simp
  case flags =>
    rw [State.setIp_flag]
    exact flagPlaces_of_flagsFrom _ _ e he

end

/-- ESC reads its opcode from two places (40_decoder_prefixes R157). -/
theorem reads_esc {x y : BitVec 3} {op : Operand} (ho : op.isEsc = true) (hs : ∀ ea, op = .mem ea → ea.seg = none) :
    Reads ((0xD8 + x.setWidth 8) :: encodeRm y op) (.esc (x ++ y) op) := fun lk rest => by
  have hrow : firstByte (0xD8 + x.setWidth 8) = rowEsc x := by
    rw [← Reg16.code_ofCode x]
    cases Reg16.ofCode x <;> rfl
  refine decodeOne_body lk hrow (decodeBody_extRow_rm (size := none) (f := fun op => .esc (x ++ y) op) rfl ho ?_)
  intro ea hea
  cases op with
  | mem a => cases hea; exact hs _ rfl
  | reg8 | reg16 => cases hea

/-- Settles O51: the three software interrupts push and load the vector, IRET pops, ESC moves `ip`. -/
theorem interruptKindsInSimulated : Obligations.InterruptKindsInSimulated := by
  refine ⟨⟨fun type => reads_byte rfl type, reads_op rfl, reads_op rfl, reads_op rfl, fun x y op => reads_esc⟩,
    fun s => ⟨fun hm h => ⟨fun type hs => ?int, fun hs => ?int3, fun hs hof => ?taken⟩, fun hs hof => ?notTaken,
      fun hs h => iret_result hs h, fun c op hs => exec_eq_commit (i := .esc c op) rfl hs rfl⟩⟩
  case int => exact interrupts_of_softInterrupt rfl hs rfl hm h
  case int3 => exact interrupts_of_softInterrupt (type := 3) rfl hs rfl hm h
  case taken =>
    have hr : ruleDiff .into s = softInterrupt .into 4 s := by rw [ruleDiff, diffInto, if_pos hof]
    exact interrupts_of_softInterrupt rfl hs hr hm h
  case notTaken =>
    have hr : ruleDiff .into s = .ok [.ip (s.ip + 1)] := by
      rw [ruleDiff, diffInto, hof]
      rfl
    exact exec_eq_commit rfl hs hr

end Sys2Proof.Machine
end

section
/-! PROOFS. MUL and IMUL, DIV and IDIV (44_arithmetic R305, R306, R308, R309). -/

namespace Sys2Proof.Machine

/-! ### Signed values -/

theorem toNat_append_words (hi lo : Word) : (hi ++ lo).toNat = hi.toNat * 65536 + lo.toNat := by
  rw [BitVec.toNat_append, Nat.shiftLeft_eq, Nat.mul_comm, ← Nat.two_pow_add_eq_or_of_lt lo.isLt]

/-- The two halves of a double word that holds a signed number (44_arithmetic R305). -/
theorem ofInt_append_ofInt (p : Int) :
    BitVec.ofInt 16 (p / 65536) ++ BitVec.ofInt 16 p = BitVec.ofInt 32 p := by
  apply BitVec.eq_of_toNat_eq
  rw [toNat_append_words, BitVec.toNat_ofInt, BitVec.toNat_ofInt, BitVec.toNat_ofInt]
  omega

/-- The dividend of IDIV is that of the statement (44_arithmetic R309). -/
theorem signedDividend_byte (s : State) : signedDividend s .byte = (s.reg .ax).toInt := conv_word_toNat _

theorem signedDividend_word (s : State) : signedDividend s .word = (s.reg .dx ++ s.reg .ax).toInt := by
  have hax := (s.reg .ax).isLt
  have hbit : (s.reg .dx).getLsbD 15 = decide (32768 ≤ (s.reg .dx).toNat) := by
    rw [← BitVec.msb_eq_getLsbD_last, BitVec.msb_eq_decide]
  rw [BitVec.toInt_eq_toNat_cond, toNat_append_words, signedDividend, hbit]
  simp only [decide_eq_true_eq, dividend]
  split <;> split <;> omega

/-! ### MUL and IMUL -/

section
variable {i : Instr} {k : Kind} {s : State} {op : Operand}

theorem multiplies_of_productDiff {w : Width} {p : Int} {wide : Bool} {wide' : Prop} (hk : recordKind i = some k)
    (hs : k ∈ s.cfg.simulated) (hr : ruleDiff i s = .ok (productDiff i s w p wide)) (hw : wide = true ↔ wide') :
    Multiplies i s w p wide' := by
  cases w with
  | byte =>
    refine (execNext_of_flagWrites (ws := [.reg .ax (BitVec.ofInt 16 p)]) hk hs hr (by simp [KeepIp, Write.key])
      (by simp) (frame_setReg s .ax _)).imp ?_
    rintro t ⟨hip, hreg, hflags, hframe⟩
    have hCF := hflags .CF wide (by simp)
    have hOF := hflags .OF wide (by simp)
    refine ⟨hip, fun _ => ⟨?ax, ?dx⟩, nofun, hCF ▸ hw, hOF ▸ hw, hframe.mono (by simp [Touched.add, touchRegs]) ?_ ?_ ?_ ?_⟩
    case ax => rw [hreg]; simp
    case dx => rw [hreg]; simp
    all_goals exact List.Subset.refl _
  | word =>
    refine (execNext_of_flagWrites (ws := [.reg .ax (BitVec.ofInt 16 p), .reg .dx (BitVec.ofInt 16 (p / 65536))]) hk hs
      hr (by simp [KeepIp, Write.key]) (by simp) ((frame_setReg s .ax _).trans (frame_setReg _ .dx _))).imp ?_
    rintro t ⟨hip, hreg, hflags, hframe⟩
    have hCF := hflags .CF wide (by simp)
    have hOF := hflags .OF wide (by simp)
    refine ⟨hip, nofun, fun _ => ?product, hCF ▸ hw, hOF ▸ hw, hframe⟩
    case product =>
      rw [hreg, hreg]
      simp [ofInt_append_ofInt]

theorem mul_wide {w : Width} (n : Nat) : (n / modulus w != 0) = true ↔ n ≥ modulus w := by
  rw [bne_iff_ne, Nat.div_ne_zero_iff, and_iff_right (modulus_pos w).ne']

theorem imul_wide {w : Width} (p : Int) :
    (decide (p < -((modulus w / 2 : Nat) : Int)) || decide (p > ((modulus w / 2 : Nat) : Int) - 1)) = true ↔
      ¬ FitsSigned w p := by
  rw [Bool.or_eq_true, decide_eq_true_eq, decide_eq_true_eq, FitsSigned]
  omega

theorem diffMul_ok (ho : operandOk s op.width op = true) :
    diffMul op s = .ok (productDiff (.mul op) s op.width
      (operandVal s op.width (acc op.width) * operandVal s op.width op : Nat)
      (operandVal s op.width (acc op.width) * operandVal s op.width op / modulus op.width != 0)) := by
  rw [diffMul, readOp_ok ho, readOp_ok (operandOk_acc s _)]
  rfl

end

/-- Settles O34: the product is written, with the flags that say whether it needs the high half. -/
theorem mulAndImulResult : Obligations.MulAndImulResult := by
  refine ⟨⟨readsExt (by rintro ⟨⟩ <;> exact ⟨_, rfl, rfl⟩), readsExt (by rintro ⟨⟩ <;> exact ⟨_, rfl, rfl⟩)⟩,
    fun s op ho => ⟨fun _ hs => multiplies_of_productDiff rfl hs (diffMul_ok ho) (mul_wide _), fun _ hs => ?imul⟩⟩
  case imul =>
    refine multiplies_of_productDiff rfl hs ?_ (imul_wide _)
    rw [ruleDiff, diffImul, readOp_ok ho, readOp_ok (operandOk_acc s _)]
    rfl

/-! ### DIV and IDIV -/

section
variable {i : Instr} {k : Kind} {s : State} {op : Operand}

theorem divides_of_quotientDiff {w : Width} {q r : Int} (hk : recordKind i = some k) (hs : k ∈ s.cfg.simulated)
    (hr : ruleDiff i s = .ok (quotientDiff i s w q r)) : Divides i s w q r := by
  cases w with
  | byte =>
    refine (execNext_of_flagWrites (ws := [.reg .ax _]) hk hs hr (by simp [KeepIp, Write.key]) List.nodup_nil
      (frame_setReg s .ax _)).imp ?_
    rintro t ⟨hip, hreg, -, hframe⟩
    have hax := hreg .ax
    have hdx := hreg .dx
    simp only [commit_cons, commit_nil, Write.apply_reg, State.setReg_reg, if_true, reduceCtorEq, if_false] at hax hdx
    obtain ⟨hah, hal⟩ := reg8_of_ax_eq hax (reduce_lt .byte q)
    refine ⟨hip, fun _ => ⟨?al, hah.trans (ofNat_reduce_byte r), hdx⟩, nofun,
      hframe.mono (by simp [Touched.add, touchRegs, touchFlags, touchNothing]) ?_ ?_ ?_ ?_⟩
    case al =>
      rw [← ofNat_reduce_byte, ← hal, BitVec.ofNat_toNat, BitVec.setWidth_eq]
    all_goals exact List.Subset.refl _
  | word =>
    refine (execNext_of_flagWrites (ws := [.reg .ax (BitVec.ofInt 16 q), .reg .dx (BitVec.ofInt 16 r)]) hk hs hr
      (by simp [KeepIp, Write.key]) List.nodup_nil ((frame_setReg s .ax _).trans (frame_setReg _ .dx _))).imp ?_
    rintro t ⟨hip, hreg, -, hframe⟩
    exact ⟨hip, nofun, fun _ => ⟨by rw [hreg]; simp, by rw [hreg]; simp⟩, hframe⟩

theorem exec_eq_divideError (hk : recordKind i = some k) (hs : k ∈ s.cfg.simulated)
    (hr : ruleDiff i s = .error .divideError) : exec i s = .fault .divideError := by
  rw [exec_eq_complete hk, hr, complete_error hs]

theorem diffDiv_eq (ho : operandOk s op.width op = true) :
    diffDiv op s = if operandVal s op.width op = 0 ∨
        dividend s op.width / operandVal s op.width op > modulus op.width - 1 then .error .divideError
      else .ok (quotientDiff (.div op) s op.width (dividend s op.width / operandVal s op.width op : Nat)
        (dividend s op.width % operandVal s op.width op : Nat)) := by
  rw [diffDiv, readOp_ok ho]
  rfl

theorem diffIdiv_eq {d q : Int} (ho : operandOk s op.width op = true) (hd : d = conv op.width (operandVal s op.width op))
    (hq : q = (signedDividend s op.width).tdiv d) :
    diffIdiv op s = if d = 0 ∨ q > ((modulus op.width / 2 : Nat) : Int) - 1 ∨ q < idivMin s op.width then
        .error .divideError
      else .ok (quotientDiff (.idiv op) s op.width q ((signedDividend s op.width).tmod d)) := by
  subst hd hq
  rw [diffIdiv, readOp_ok ho]
  rfl

end

/-- Settles O35: the quotient and remainder are unique where they exist; the rule raises where they do not. -/
theorem divResult : Obligations.DivResult := by
  refine ⟨readsExt (by rintro ⟨⟩ <;> exact ⟨_, rfl, rfl⟩), ?_⟩
  rintro s op n _ - hs ho rfl hn
  replace hn : n = dividend s op.width := by
    rw [hn]
    cases op.width <;> rfl
  have hpos := modulus_pos op.width
  have hrule := diffDiv_eq ho
  rw [← hn] at hrule
  refine ⟨fun q r hqr hr hq => ?quotient, fun h => exec_eq_divideError rfl hs (hrule.trans (if_pos ?error))⟩
  case quotient =>
    have hunique : n / operandVal s op.width op = q ∧ n % operandVal s op.width op = r :=
      (Nat.div_mod_unique (Nat.zero_lt_of_lt hr)).2 ⟨by rw [hqr, Nat.mul_comm, Nat.add_comm], hr⟩
    obtain ⟨hdiv, hmod⟩ := hunique
    rw [hdiv, hmod, if_neg (by omega)] at hrule
    exact divides_of_quotientDiff rfl hs hrule
  case error =>
    refine or_iff_not_imp_left.2 fun hne => ?_
    have hle := (Nat.le_div_iff_mul_le (Nat.pos_of_ne_zero hne)).2 (h.resolve_left hne)
    omega

/-- Settles O36: the rule's quotient truncates, and its bounds are those of the statement. -/
theorem idivResult : Obligations.IdivResult := by
  refine ⟨readsExt (by rintro ⟨⟩ <;> exact ⟨_, rfl, rfl⟩), ?_⟩
  rintro s op n d lo - hs ho hd hn hlo
  replace hn : n = signedDividend s op.width := by
    rw [hn]
    cases op.width
    · exact (signedDividend_byte s).symm
    · exact (signedDividend_word s).symm
  replace hlo : lo = idivMin s op.width := by
    rw [hlo]
    cases op.width <;> rfl
  have hrule := diffIdiv_eq ho hd rfl
  rw [← hn, ← hlo] at hrule
  refine ⟨fun hne hhigh hlow => ?quotient, fun h => exec_eq_divideError rfl hs (hrule.trans (if_pos ?error))⟩
  case quotient =>
    rw [if_neg (by omega), Int.tmod_def] at hrule
    exact divides_of_quotientDiff rfl hs hrule
  case error => omega

end Sys2Proof.Machine
end

section
/-! PROOFS. The one-bit steps of shifts and rotates bit by bit, and what a count of them is (42_alu_flags R209, R210). -/

namespace Sys2Proof.Machine

/-! ### One bit in at either end -/

/-- Two numbers of a width are equal when their bits are. -/
theorem eq_of_testBit_le {w : Width} {a b : Nat} (ha : a < modulus w) (hb : b < modulus w)
    (h : ∀ k, k ≤ msb w → a.testBit k = b.testBit k) : a = b := by
  refine Nat.eq_of_testBit_eq fun k => ?_
  rw [modulus_eq_two_pow] at ha hb
  by_cases hk : k ≤ msb w
  · exact h k hk
  · have hpow : 2 ^ (msb w + 1) ≤ 2 ^ k := Nat.pow_le_pow_right (by decide) (by omega)
    rw [Nat.testBit_lt_two_pow (ha.trans_le hpow), Nat.testBit_lt_two_pow (hb.trans_le hpow)]

section
variable {w : Width} {r : Nat} (b : Bool)

/-- The operand moved up by one, `b` coming in at the bottom. -/
theorem testBit_up {k : Nat} (hk : k ≤ msb w) :
    (2 * r % modulus w + b.toNat).testBit k = if k = 0 then b else r.testBit (k - 1) := by
  have hbit : 2 * r % modulus w + b.toNat = Nat.bit b (r % 2 ^ msb w) := by
    rw [modulus_eq_two_pow, Nat.pow_succ', Nat.mul_mod_mul_left, Nat.bit_val]
  rw [hbit]
  cases k with
  | zero => rw [Nat.testBit_bit_zero, if_pos rfl]
  | succ k =>
    rw [Nat.testBit_bit_succ, Nat.testBit_mod_two_pow, decide_eq_true (by omega), Bool.true_and,
      if_neg k.succ_ne_zero, Nat.add_sub_cancel]

/-- The operand moved down by one, `b` coming in at the top. -/
theorem testBit_down (hr : r < modulus w) {k : Nat} (hk : k ≤ msb w) :
    (r / 2 + b.toNat * 2 ^ msb w).testBit k = if k = msb w then b else r.testBit (k + 1) := by
  rw [modulus_eq_two_pow, Nat.pow_succ] at hr
  rw [Nat.add_comm, Nat.mul_comm, Nat.testBit_two_pow_mul_add _ (by omega)]
  obtain hlt | rfl := hk.lt_or_eq
  · rw [if_pos hlt, if_neg hlt.ne, Nat.testBit_div_two]
  · rw [if_neg (lt_irrefl _), if_pos rfl, Nat.sub_self]
    cases b <;> rfl

theorem up_lt : 2 * r % modulus w + b.toNat < modulus w := by
  have hb := b.toNat_le
  cases w <;> rw [modulus] <;> omega

theorem down_lt (hr : r < modulus w) : r / 2 + b.toNat * 2 ^ msb w < modulus w := by
  have hb := b.toNat_le
  cases w <;> rw [modulus] at * <;> rw [msb] <;> omega

end

/-! ### The steps -/

section
variable {w : Width} {r : Nat} {cf : Bool}

theorem shiftStep_lt (op : ShiftOp) (hr : r < modulus w) : (shiftStep op w (r, cf)).1 < modulus w := by
  cases op with
  | shl => exact up_lt false
  | rol | rcl => exact up_lt _
  | shr => exact (Nat.div_le_self r 2).trans_lt hr
  | sar | ror | rcr => exact down_lt _ hr

theorem shiftStep_testBit (op : ShiftOp) (hr : r < modulus w) {k : Nat} (hk : k ≤ msb w) :
    (shiftStep op w (r, cf)).1.testBit k =
      match op with
      | .shl => decide (k ≠ 0) && r.testBit (k - 1)
      | .rol => if k = 0 then r.testBit (msb w) else r.testBit (k - 1)
      | .rcl => if k = 0 then cf else r.testBit (k - 1)
      | .shr => decide (k ≠ msb w) && r.testBit (k + 1)
      | .sar => if k = msb w then r.testBit (msb w) else r.testBit (k + 1)
      | .ror => if k = msb w then r.testBit 0 else r.testBit (k + 1)
      | .rcr => if k = msb w then cf else r.testBit (k + 1) := by
  cases op with
  | shl =>
    refine (testBit_up false hk).trans ?_
    by_cases h : k = 0 <;> simp [h]
  | rol | rcl => exact testBit_up _ hk
  | shr =>
    have h := testBit_down false hr hk
    rw [Bool.toNat_false, Nat.zero_mul, Nat.add_zero] at h
    refine h.trans ?_
    by_cases h : k = msb w <;> simp [h]
  | sar | ror | rcr => exact testBit_down _ hr hk

theorem shiftStep_carry (op : ShiftOp) :
    (shiftStep op w (r, cf)).2 =
      match op with
      | .shl => r.testBit (msb w)
      | .rol => r.testBit (msb w)
      | .rcl => r.testBit (msb w)
      | .shr => r.testBit 0
      | .sar => r.testBit 0
      | .ror => r.testBit 0
      | .rcr => r.testBit 0 := by
  cases op <;> rfl

end

theorem shiftRot_succ (op : ShiftOp) (w : Width) (c : Nat) (x : Nat × Bool) :
    shiftRot op w (c + 1) x = shiftStep op w (shiftRot op w c x) := shiftRot_add op w c 1 x

theorem shiftRot_lt (op : ShiftOp) {w : Width} {x : Nat × Bool} (hx : x.1 < modulus w) (c : Nat) :
    (shiftRot op w c x).1 < modulus w := by
  induction c with
  | zero => exact hx
  | succ c ih =>
    rw [shiftRot_succ]
    exact shiftStep_lt op ih

/-- Settles O40: each step moves the operand by one with a bit coming in at the end. -/
theorem oneBitSteps : Obligations.OneBitSteps := fun _ _ _ hr =>
  ⟨fun _ => rfl, fun op c => shiftRot_succ op _ c _, fun op => shiftStep_lt op hr,
    fun op _ hk => (shiftStep_testBit op hr hk).trans (by cases op <;> rfl),
    fun op => (shiftStep_carry op).trans (by cases op <;> rfl)⟩

/-! ### Closed forms of the shifts -/

section
variable {w : Width} {a : Nat} (cf : Bool)

theorem shl_fst (ha : a < modulus w) (c : Nat) : (shiftRot .shl w c (a, cf)).1 = 2 ^ c * a % modulus w := by
  induction c with
  | zero => simp [Nat.mod_eq_of_lt ha]
  | succ c ih =>
    rw [shiftRot_succ]
    change 2 * (shiftRot .shl w c (a, cf)).1 % modulus w = _
    rw [ih, Nat.mul_mod_mod, ← Nat.mul_assoc, Nat.pow_succ']

theorem shl_fst_of_le (ha : a < modulus w) {c : Nat} (hc : msb w + 1 ≤ c) : (shiftRot .shl w c (a, cf)).1 = 0 := by
  rw [shl_fst cf ha, modulus_eq_two_pow]
  exact Nat.mod_eq_zero_of_dvd ((Nat.pow_dvd_pow 2 hc).mul_right a)

theorem shl_carry (c : Nat) :
    (shiftRot .shl w (c + 1) (a, cf)).2 = (shiftRot .shl w c (a, cf)).1.testBit (msb w) := by
  rw [shiftRot_succ]
  rfl

theorem shr_fst (c : Nat) : (shiftRot .shr w c (a, cf)).1 = a / 2 ^ c := by
  induction c with
  | zero => simp
  | succ c ih =>
    rw [shiftRot_succ]
    change (shiftRot .shr w c (a, cf)).1 / 2 = _
    rw [ih, Nat.div_div_eq_div_mul, Nat.pow_succ]

theorem shr_fst_of_le (ha : a < modulus w) {c : Nat} (hc : msb w + 1 ≤ c) : (shiftRot .shr w c (a, cf)).1 = 0 := by
  rw [shr_fst, Nat.div_eq_zero_iff]
  rw [modulus_eq_two_pow] at ha
  exact .inr (ha.trans_le (Nat.pow_le_pow_right (by decide) hc))

theorem shr_carry (c : Nat) : (shiftRot .shr w (c + 1) (a, cf)).2 = a.testBit c := by
  have h : (shiftRot .shr w (c + 1) (a, cf)).2 = (shiftRot .shr w c (a, cf)).1.testBit 0 := by
    rw [shiftRot_succ]
    rfl
  rw [h, shr_fst, Nat.testBit_div_two_pow, Nat.zero_add]

/-- SAR fills with the sign. -/
theorem sar_testBit (ha : a < modulus w) (c : Nat) {k : Nat} (hk : k ≤ msb w) :
    (shiftRot .sar w c (a, cf)).1.testBit k = a.testBit (min (k + c) (msb w)) := by
  induction c generalizing k with
  | zero => rw [Nat.add_zero, Nat.min_eq_left hk]; rfl
  | succ c ih =>
    rw [shiftRot_succ, shiftStep_testBit .sar (shiftRot_lt .sar ha c) hk]
    dsimp only
    split
    next h => rw [ih le_rfl, h, Nat.min_eq_right (by omega), Nat.min_eq_right (by omega)]
    next h => rw [ih (by omega), Nat.add_right_comm, Nat.add_assoc]

theorem sar_of_le (ha : a < modulus w) {c : Nat} (hc : msb w + 1 ≤ c) :
    shiftRot .sar w c (a, cf) = (if a.testBit (msb w) then modulus w - 1 else 0, a.testBit (msb w)) := by
  obtain ⟨d, rfl⟩ : ∃ d, c = d + 1 := ⟨c - 1, by omega⟩
  refine Prod.ext (eq_of_testBit_le (shiftRot_lt .sar ha _) ?lt fun k hk => ?bits) ?carry
  case lt =>
    have := modulus_pos w
    dsimp only
    split <;> omega
  case bits =>
    rw [sar_testBit cf ha _ hk, Nat.min_eq_right (by omega), modulus_eq_two_pow]
    cases a.testBit (msb w) with
    | false => exact (Nat.zero_testBit k).symm
    | true => simp [Nat.testBit_two_pow_sub_one, Nat.lt_succ_of_le hk]
  case carry =>
    have h : (shiftRot .sar w (d + 1) (a, cf)).2 = (shiftRot .sar w d (a, cf)).1.testBit 0 := by
      rw [shiftRot_succ]
      rfl
    rw [h, sar_testBit cf ha d (Nat.zero_le _), Nat.min_eq_right (by omega)]

/-! ### Closed forms of the rotates -/

theorem rol_testBit (ha : a < modulus w) (c : Nat) {k : Nat} (hk : k ≤ msb w) :
    (shiftRot .rol w c (a, cf)).1.testBit k = a.testBit ((k + msb w * c) % (msb w + 1)) := by
  induction c generalizing k with
  | zero => rw [Nat.mul_zero, Nat.add_zero, Nat.mod_eq_of_lt (Nat.lt_succ_of_le hk)]; rfl
  | succ c ih =>
    rw [shiftRot_succ, shiftStep_testBit .rol (shiftRot_lt .rol ha c) hk]
    dsimp only
    split <;> rw [ih (by omega)] <;> congr 1 <;> cases w <;> rw [msb] at * <;> omega

theorem ror_testBit (ha : a < modulus w) (c : Nat) {k : Nat} (hk : k ≤ msb w) :
    (shiftRot .ror w c (a, cf)).1.testBit k = a.testBit ((k + c) % (msb w + 1)) := by
  induction c generalizing k with
  | zero => rw [Nat.add_zero, Nat.mod_eq_of_lt (Nat.lt_succ_of_le hk)]; rfl
  | succ c ih =>
    rw [shiftRot_succ, shiftStep_testBit .ror (shiftRot_lt .ror ha c) hk]
    dsimp only
    split <;> rw [ih (by omega)] <;> congr 1 <;> cases w <;> rw [msb] at * <;> omega

end

/-- Bit `k` of the operand with the carry above it, which RCL and RCR rotate as one (42_alu_flags R209). -/
def carryBit (w : Width) (x : Nat × Bool) (k : Nat) : Bool := if k ≤ msb w then x.1.testBit k else x.2

theorem eq_of_carryBit {w : Width} {x y : Nat × Bool} (hx : x.1 < modulus w) (hy : y.1 < modulus w)
    (h : ∀ k, k ≤ msb w + 1 → carryBit w x k = carryBit w y k) : x = y := by
  refine Prod.ext (eq_of_testBit_le hx hy fun k hk => ?bits) ?carry
  case bits => simpa [carryBit, hk] using h k (by omega)
  case carry => simpa [carryBit] using h (msb w + 1) le_rfl

section
variable {w : Width} {x : Nat × Bool}

theorem carryBit_rcl_step (hx : x.1 < modulus w) {k : Nat} (hk : k ≤ msb w + 1) :
    carryBit w (shiftStep .rcl w x) k = if k = 0 then carryBit w x (msb w + 1) else carryBit w x (k - 1) := by
  obtain ⟨r, cf⟩ := x
  unfold carryBit
  split
  next hle =>
    have htop : ¬ msb w + 1 ≤ msb w := by omega
    have hpred : k - 1 ≤ msb w := by omega
    rw [shiftStep_testBit .rcl hx hle, if_neg htop, if_pos hpred]
  next hgt =>
    obtain rfl : k = msb w + 1 := by omega
    rw [if_neg (by omega), Nat.add_sub_cancel, if_pos le_rfl]
    rfl

theorem carryBit_rcr_step (hx : x.1 < modulus w) {k : Nat} (hk : k ≤ msb w + 1) :
    carryBit w (shiftStep .rcr w x) k = if k = msb w + 1 then carryBit w x 0 else carryBit w x (k + 1) := by
  obtain ⟨r, cf⟩ := x
  unfold carryBit
  split
  next hle =>
    have hne : k ≠ msb w + 1 := by omega
    rw [shiftStep_testBit .rcr hx hle, if_neg hne]
    by_cases h : k = msb w
    · have htop : ¬ k + 1 ≤ msb w := by omega
      rw [if_neg htop]
      exact if_pos h
    · have hsucc : k + 1 ≤ msb w := by omega
      rw [if_pos hsucc]
      exact if_neg h
  next hgt =>
    rw [if_pos (by omega), if_pos (Nat.zero_le _)]
    rfl

theorem carryBit_rcl (hx : x.1 < modulus w) (c : Nat) {k : Nat} (hk : k ≤ msb w + 1) :
    carryBit w (shiftRot .rcl w c x) k = carryBit w x ((k + (msb w + 1) * c) % (msb w + 2)) := by
  induction c generalizing k with
  | zero => rw [Nat.mul_zero, Nat.add_zero, Nat.mod_eq_of_lt (by omega)]; rfl
  | succ c ih =>
    rw [shiftRot_succ, carryBit_rcl_step (shiftRot_lt .rcl hx c) hk]
    split <;> rw [ih (by omega)] <;> congr 1 <;> cases w <;> rw [msb] at * <;> omega

theorem carryBit_rcr (hx : x.1 < modulus w) (c : Nat) {k : Nat} (hk : k ≤ msb w + 1) :
    carryBit w (shiftRot .rcr w c x) k = carryBit w x ((k + c) % (msb w + 2)) := by
  induction c generalizing k with
  | zero => rw [Nat.add_zero, Nat.mod_eq_of_lt (by omega)]; rfl
  | succ c ih =>
    rw [shiftRot_succ, carryBit_rcr_step (shiftRot_lt .rcr hx c) hk]
    split <;> rw [ih (by omega)] <;> congr 1 <;> cases w <;> rw [msb] at * <;> omega

end

theorem mul_add_mod_period (k m c : Nat) : (k + m * (c + (m + 1))) % (m + 1) = (k + m * c) % (m + 1) := by
  rw [Nat.mul_add, ← Nat.add_assoc, Nat.add_mul_mod_self_right]

section
variable {w : Width} {a : Nat} (cf : Bool) (c : Nat)

theorem rol_period (ha : a < modulus w) :
    (shiftRot .rol w (c + (msb w + 1)) (a, cf)).1 = (shiftRot .rol w c (a, cf)).1 :=
  eq_of_testBit_le (shiftRot_lt .rol ha _) (shiftRot_lt .rol ha _) fun k hk => by
    rw [rol_testBit cf ha _ hk, rol_testBit cf ha _ hk, mul_add_mod_period]

theorem ror_period (ha : a < modulus w) :
    (shiftRot .ror w (c + (msb w + 1)) (a, cf)).1 = (shiftRot .ror w c (a, cf)).1 :=
  eq_of_testBit_le (shiftRot_lt .ror ha _) (shiftRot_lt .ror ha _) fun k hk => by
    rw [ror_testBit cf ha _ hk, ror_testBit cf ha _ hk, ← Nat.add_assoc, Nat.add_mod_right]

theorem rcl_period (ha : a < modulus w) :
    shiftRot .rcl w (c + (msb w + 2)) (a, cf) = shiftRot .rcl w c (a, cf) :=
  eq_of_carryBit (shiftRot_lt .rcl ha _) (shiftRot_lt .rcl ha _) fun k hk => by
    rw [carryBit_rcl ha _ hk, carryBit_rcl ha _ hk, mul_add_mod_period]

theorem rcr_period (ha : a < modulus w) :
    shiftRot .rcr w (c + (msb w + 2)) (a, cf) = shiftRot .rcr w c (a, cf) :=
  eq_of_carryBit (shiftRot_lt .rcr ha _) (shiftRot_lt .rcr ha _) fun k hk => by
    rw [carryBit_rcr ha _ hk, carryBit_rcr ha _ hk, ← Nat.add_assoc, Nat.add_mod_right]

theorem rol_carry (ha : a < modulus w) :
    (shiftRot .rol w (c + 1) (a, cf)).2 = (shiftRot .rol w (c + 1) (a, cf)).1.testBit 0 := by
  rw [shiftRot_succ, shiftStep_testBit .rol (shiftRot_lt .rol ha c) (Nat.zero_le _)]
  rfl

theorem ror_carry (ha : a < modulus w) :
    (shiftRot .ror w (c + 1) (a, cf)).2 = (shiftRot .ror w (c + 1) (a, cf)).1.testBit (msb w) := by
  rw [shiftRot_succ, shiftStep_testBit .ror (shiftRot_lt .ror ha c) le_rfl]
  exact (if_pos rfl).symm

end

/-- Settles O41: the bits after `c` steps, taken at the bounds; a rotate is an index moved round. -/
theorem shiftClosedForms : Obligations.ShiftClosedForms := by
  refine fun w a cf c ha => ⟨fun hc => ⟨?shl, ?shr⟩, ?shlWidth, ?shrWidth, sar_of_le cf ha, rol_period cf c ha,
    ror_period cf c ha, rcl_period cf c ha, rcr_period cf c ha, fun hc => ?carries⟩
  case shl =>
    obtain ⟨d, rfl⟩ : ∃ d, c = d + 1 := ⟨c - 1, by omega⟩
    refine Prod.ext (shl_fst_of_le cf ha (by omega)) ((shl_carry cf d).trans ?_)
    rw [shl_fst_of_le cf ha (by omega), Nat.zero_testBit]
  case shr =>
    obtain ⟨d, rfl⟩ : ∃ d, c = d + 1 := ⟨c - 1, by omega⟩
    refine Prod.ext (shr_fst_of_le cf ha (by omega)) ((shr_carry cf d).trans ?_)
    rw [modulus_eq_two_pow] at ha
    exact Nat.testBit_lt_two_pow (ha.trans_le (Nat.pow_le_pow_right (by decide) (by omega)))
  case shlWidth =>
    refine Prod.ext (shl_fst_of_le cf ha le_rfl) ((shl_carry cf _).trans ?_)
    rw [shl_fst cf ha, modulus_eq_two_pow, Nat.testBit_mod_two_pow, Nat.testBit_two_pow_mul]
    simp
  case shrWidth => exact Prod.ext (shr_fst_of_le cf ha le_rfl) (shr_carry cf _)
  case carries =>
    obtain ⟨d, rfl⟩ : ∃ d, c = d + 1 := ⟨c - 1, by omega⟩
    exact ⟨rol_carry cf d ha, ror_carry cf d ha⟩

end Sys2Proof.Machine
end

section
/-! PROOFS. The seven shifts and rotates of an operand (45_logic_shift R320, R322 to R328, 42_alu_flags R211, R212). -/

namespace Sys2Proof.Machine

/-! ### The flags they write -/

/-- The flags a shift or rotate by a count of at least 1 defines, with their values. -/
def shiftDefined (op : ShiftOp) (w : Width) (c a r : Nat) (cf : Bool) : List (Flag × Bool) :=
  [(.CF, cf)] ++ (if op.isShift then szp w r else []) ++ (if c = 1 then [(.OF, shiftOverflow op w a r cf)] else [])

/-- The flags it leaves undefined. -/
def shiftUndefined (op : ShiftOp) (c : Nat) : List Flag :=
  (if op.isShift then [.AF] else []) ++ (if c = 1 then [] else [.OF])

theorem shiftFlags_eq (s : State) (op : ShiftOp) (w : Width) (c a r : Nat) (cf : Bool) :
    shiftFlags s op w c a r cf = flagWrites s (shiftDefined op w c a r cf) (shiftUndefined op c) := rfl

theorem shiftDefined_nodup (op : ShiftOp) (w : Width) (c a r : Nat) (cf : Bool) :
    ((shiftDefined op w c a r cf).map Prod.fst).Nodup := by
  cases h : op.isShift <;> by_cases hc : c = 1 <;> simp [shiftDefined, szp, h, hc]

/-- The flags a shift or rotate touches, those of the statement. -/
theorem shiftFlags_subset (s : State) (op : ShiftOp) (w : Width) (c a r : Nat) (cf : Bool) :
    (shiftDefined op w c a r cf).map Prod.fst ++ undefTouched s (shiftUndefined op c) ⊆
      [.CF] ++ (if op.isShift then [.PF, .ZF, .SF] ++ undefTouched s [.AF] else []) ++
        (if c = 1 then [.OF] else undefTouched s [.OF]) := by
  cases h : op.isShift <;> by_cases hc : c = 1 <;> cases hu : s.cfg.undefFlags <;>
    simp [shiftDefined, shiftUndefined, undefTouched, szp, h, hc, hu]

/-! ### The step -/

section
variable {i : Instr} {k : Kind} {s : State} {op : ShiftOp} {dst : Operand} {count : ShiftCount}

theorem shiftDiff_zero (ho : operandOk s dst.width dst = true) (hc : shiftCount s count = 0) :
    shiftDiff i s op dst count = .ok [.ip (nextIp i s)] := by
  rw [shiftDiff, readOp_ok ho]
  exact if_pos hc

theorem shiftDiff_ok (ho : operandOk s dst.width dst = true) (hc : shiftCount s count ≠ 0) {r : Nat} {cf : Bool}
    (hr : shiftRot op dst.width (shiftCount s count) (operandVal s dst.width dst, s.flag .CF) = (r, cf)) :
    shiftDiff i s op dst count = .ok (.ip (nextIp i s) :: (operandWrites s dst.width dst r ++
      flagWrites s (shiftDefined op dst.width (shiftCount s count) (operandVal s dst.width dst) r cf)
        (shiftUndefined op (shiftCount s count)))) := by
  rw [shiftDiff, readOp_ok ho]
  refine (if_neg hc).trans ?_
  simp [hr, writeOp_ok ho, shiftFlags_eq, bind, Except.bind, pure, Except.pure]

theorem ruleDiff_shiftInstr (s : State) (dst : Operand) (count : ShiftCount) (op : ShiftOp) :
    ruleDiff (shiftInstr dst count op).1 s = shiftDiff (shiftInstr dst count op).1 s op dst count := by
  cases op <;> rfl

theorem recordKind_shiftInstr (dst : Operand) (count : ShiftCount) (op : ShiftOp) :
    recordKind (shiftInstr dst count op).1 = some (shiftInstr dst count op).2 := by
  cases op <;> rfl

theorem isRm_of_wellFormed_shiftInstr {lk : Lockable} (h : WellFormed lk (shiftInstr dst count op).1 = true) :
    dst.isRm = true := by
  cases op <;> exact h

/-- The count is 1, or the whole of `cl` (42_alu_flags R210). -/
theorem shiftCount_cl (s : State) : shiftCount s .cl = (s.reg .cx).toNat % 256 := by
  have h : s.reg8 .cl = loByte (s.reg .cx) := rfl
  rw [shiftCount, h]
  simp [loByte, BitVec.extractLsb'_toNat]

theorem mem_shiftDefined_szp {w : Width} {c a r : Nat} {cf : Bool} (h : op = .shl ∨ op = .shr ∨ op = .sar)
    {e : Flag × Bool} (he : e ∈ szp w r) : e ∈ shiftDefined op w c a r cf := by
  have hshift : op.isShift = true := by obtain rfl | rfl | rfl := h <;> rfl
  simp [shiftDefined, hshift, he]

theorem mem_shiftDefined_overflow {w : Width} {c a r : Nat} {cf : Bool} (hc : c = 1) :
    (.OF, shiftOverflow op w a r cf) ∈ shiftDefined op w c a r cf := by
  simp [shiftDefined, hc]

end

/-- The rows of the shift group at a width: the count and the extension fix the record. -/
theorem reads_shiftGroup {ext : BitVec 3} {op : ShiftOp}
    (h1 : ∀ w : Width, ExtRow (0xD0 + w.bit) ext (.rm (some w) fun dst => (shiftInstr dst .one op).1))
    (hcl : ∀ w : Width, ExtRow (0xD2 + w.bit) ext (.rm (some w) fun dst => (shiftInstr dst .cl op).1)) :
    ReadsExt 0xD0 ext (fun dst => (shiftInstr dst .one op).1) ∧
      ReadsExt 0xD2 ext fun dst => (shiftInstr dst .cl op).1 := ⟨readsExt h1, readsExt hcl⟩

/-- Settles O39: the template of the shifts, its flags read off by what each operation defines. -/
theorem shiftAndRotateResult : Obligations.ShiftAndRotateResult := by
  refine ⟨?rows, fun s dst count op c hc hw hs ho => ?step⟩
  case rows =>
    simp only [List.forall_mem_cons, List.not_mem_nil, false_implies, implies_true, and_true]
    refine ⟨?_, ?_, ?_, ?_, ?_, ?_, ?_⟩ <;>
      exact reads_shiftGroup (by rintro ⟨⟩ <;> exact ⟨_, rfl, rfl⟩) (by rintro ⟨⟩ <;> exact ⟨_, rfl, rfl⟩)
  case step =>
    have hcount : c = shiftCount s count := by
      cases count with
      | one => exact hc
      | cl => exact hc.trans (shiftCount_cl s).symm
    have hk := recordKind_shiftInstr dst count op
    have hrule := ruleDiff_shiftInstr s dst count op
    have hlt : operandVal s dst.width dst < modulus dst.width :=
      operandVal_lt (Operand.isAt_width (isRm_of_wellFormed_shiftInstr hw))
    subst hcount
    refine ⟨fun h0 => exec_eq_commit hk hs (hrule.trans (shiftDiff_zero ho h0)), fun r cf hm hne hr => ?_⟩
    have hrlt : r < modulus dst.width := by
      have h := shiftRot_lt op (x := (operandVal s dst.width dst, s.flag .CF)) hlt (shiftCount s count)
      rwa [← hr] at h
    refine (execNext_of_operandWrites hk hs (hrule.trans (shiftDiff_ok ho hne hr.symm)) (shiftDefined_nodup ..) hm
      ho).imp ?_
    rintro t ⟨hip, hop, hflags, hframe⟩
    refine ⟨hip, hop, hflags _ _ (.head _), fun h => ?szp, fun h1 => ?overflow, ?frame⟩
    case szp => exact resultFlags_of_szp hrlt fun f b hb => hflags f b (mem_shiftDefined_szp h hb)
    case overflow =>
      have hOF := hflags _ _ (mem_shiftDefined_overflow h1)
      refine ⟨?_, ?_, ?_, ?_⟩
      · rintro (rfl | rfl | rfl) <;> exact hOF
      · rintro rfl; exact hOF
      · rintro rfl; exact hOF
      · rintro (rfl | rfl) <;> exact hOF
    case frame =>
      refine hframe.mono (List.Subset.refl _) (List.Subset.refl _) (List.Subset.refl _) ?_ (List.Subset.refl _)
      exact fun f hf => List.mem_append.2 ((List.mem_append.1 hf).imp_right (shiftFlags_subset _ _ _ _ _ _ _ ·))

end Sys2Proof.Machine
end

section
/-! PROOFS. Word and host accesses of the data memory (20_memory R63 to R67, 70_reset_and_hazards R464), and the
accesses that begin at its last byte (60_exceptions R434). -/

namespace Sys2Proof.Machine

/-- What an access that begins at the last byte of the space raises. -/
def endFault : Fault := .addressRange 0x100000 none

theorem memRead_word_end (s : State) {a : Nat} (h : a + 1 = memSize) : memRead s .word a = .error endFault := by
  rw [memRead, memReadByte_ok (by omega), memReadByte_error (le_of_eq h.symm), h]
  rfl

theorem memWrite_word_end (s : State) {a : Nat} (h : a + 1 = memSize) (v : Nat) :
    memWrite s .word a v = .error endFault := by
  rw [memWrite, memReadByte_ok (by omega), memReadByte_error (le_of_eq h.symm), h]
  rfl

/-- Settles O53: the word stands in its two bytes, low one first; at the last byte the second read raises. -/
theorem memoryWordAccess : Obligations.MemoryWordAccess := by
  refine fun s a v => ⟨fun hm ha => ?inside, fun ha => ?atEnd⟩
  case inside =>
    have hok : accessOk .word a = true := decide_eq_true ha
    obtain ⟨hlo, hhi⟩ := bytesHold_toNat (storeBytes_hold v.toNat hm hok)
    obtain ⟨-, -, -, -, hother, -⟩ := frame_storeBytes s .word a v.toNat
    refine ⟨_, memWrite_ok hok, ?_, hlo, hhi, fun b h0 h1 => hother b (by simp [touchBytes, bytesOf, h0, h1])⟩
    rw [memRead_ok hok, valueAt, wordAt, hlo, hhi, toNat_eq_hiByte_loByte v]
    congr 1
    omega
  case atEnd =>
    have h : a + 1 = memSize := by rw [ha]; rfl
    exact ⟨memRead_word_end s h, memWrite_word_end s h v.toNat⟩

/-- Settles O54: both host operations compare the address with the space, the write also the value. -/
theorem hostAccessIsChecked : Obligations.HostAccessIsChecked := by
  refine fun s a v => ⟨fun ha => ?read, fun ha => ?readError, fun h => ?writeError, fun hm h => ?write⟩
  case read => exact if_pos (by rw [memSize]; omega)
  case readError => exact if_neg (by rw [memSize]; omega)
  case writeError => exact if_neg (by rw [memSize]; omega)
  case write =>
    have ha : a.toNat < memSize := by rw [memSize]; omega
    refine ⟨_, if_pos (by rw [memSize]; omega), ?_, fun b hb => State.setByte_byteAt_other s _ hb, ?_⟩
    · rw [State.setByte_byteAt_same s hm _ ha, BitVec.toNat_ofInt]
      omega
    · rw [State.setByte_inRange s _ ha]

/-! ### Accesses that begin at the last byte -/

/-- Completes, or raises as an access that begins at the last byte does. -/
def OkOrEnd {α : Type} (x : Except Fault α) : Prop := Answers (fun _ => True) (· = endFault) x

/-- A part that may raise at the end, and then one that does. -/
theorem OkOrEnd.bind_error {α β : Type} {x : Except Fault α} {g : α → Except Fault β} (h : OkOrEnd x)
    (hg : ∀ a, g a = .error endFault) : (x >>= g) = .error endFault := by
  cases x with
  | error f => exact congrArg _ h
  | ok a => exact hg a

theorem okOrEnd_ok {α : Type} (a : α) : OkOrEnd (.ok a) := trivial

theorem OkOrEnd.bind {α β : Type} {x : Except Fault α} {g : α → Except Fault β} (h : OkOrEnd x)
    (hg : ∀ a, OkOrEnd (g a)) : OkOrEnd (x >>= g) := by
  cases x with
  | error f => exact h
  | ok a => exact hg a

theorem bind_error {α β : Type} {x : Except Fault α} (h : x = .error endFault) (g : α → Except Fault β) :
    (x >>= g) = .error endFault := by
  rw [h]
  rfl

section
variable {s : State}

theorem memReadByte_okOrEnd {a : Nat} (h : a ≤ memSize) : OkOrEnd (memReadByte s a) := by
  obtain hlt | rfl := h.lt_or_eq
  · rw [memReadByte_ok hlt]; trivial
  · rw [memReadByte_error le_rfl]; exact (rfl : _ = endFault)

/-- A word that begins inside the space. -/
theorem memRead_word_okOrEnd {a : Nat} (h : a < memSize) : OkOrEnd (memRead s .word a) :=
  (memReadByte_okOrEnd h.le).bind fun _ => (memReadByte_okOrEnd h).bind fun _ => trivial

theorem memWrite_word_okOrEnd {a : Nat} (h : a < memSize) (v : Nat) : OkOrEnd (memWrite s .word a v) :=
  (memReadByte_okOrEnd h.le).bind fun _ => (memReadByte_okOrEnd h).bind fun _ => trivial

theorem eaPhys_lt (s : State) (ea : Ea) : eaPhys s ea < memSize := phys_lt _ _

theorem readOp_word_okOrEnd (op : Operand) : OkOrEnd (readOp s .word op) := by
  cases op with
  | reg8 | reg16 => trivial
  | mem ea => exact memRead_word_okOrEnd (eaPhys_lt s ea)

theorem pushedValue_okOrEnd (op : Operand) : OkOrEnd (pushedValue s op) :=
  (readOp_word_okOrEnd op).bind fun _ => trivial

theorem pop16_okOrEnd (k : Nat) : OkOrEnd (pop16 s k) := (memRead_word_okOrEnd (phys_lt _ _)).bind fun _ => trivial

theorem push16_okOrEnd (v : Word) (k : Nat) : OkOrEnd (push16 s v k) := memWrite_word_okOrEnd (phys_lt _ _) _

/-- The words of a far pointer whose four bytes reach beyond the space (41_operands_addressing R189). -/
theorem readFar_end {ea : Ea} (h : 0xFFFFD ≤ eaPhys s ea) : readFar s ea = .error endFault := by
  have hlt := eaPhys_lt s ea
  by_cases hlast : eaPhys s ea + 1 = memSize
  case pos => exact bind_error (memRead_word_end s hlast) _
  case neg =>
    refine (memRead_word_okOrEnd hlt).bind_error fun _ => bind_error ?_ _
    rw [memSize] at hlt hlast
    obtain hin | hout : eaPhys s ea + 2 + 1 = memSize ∨ eaPhys s ea + 2 = memSize := by rw [memSize]; omega
    · exact memRead_word_end s hin
    · rw [memRead, hout, memReadByte_error le_rfl]
      rfl

theorem readFar_okOrEnd (ea : Ea) : OkOrEnd (readFar s ea) := by
  by_cases h : 0xFFFFD ≤ eaPhys s ea
  · rw [readFar_end h]
    exact (rfl : _ = endFault)
  · rw [readFar_ok (decide_eq_true (by rw [memSize]; omega))]
    trivial

end

/-! ### The records -/

section
variable {s : State} {i : Instr}

theorem raisesAtTheEnd_of_ruleDiff (h : ruleDiff i s = .error endFault) : RaisesAtTheEnd s i := fun k hk hs => by
  rw [exec_eq_complete hk, h, complete_error hs]
  rfl

/-- The rule starts with a part that raises. -/
theorem raises_of_first {α : Type} {x : Except Fault α} {g : α → Except Fault (List Write)} (h : x = .error endFault)
    (hr : ruleDiff i s = x >>= g) : RaisesAtTheEnd s i := raisesAtTheEnd_of_ruleDiff (hr.trans (bind_error h g))

/-- The second part of the rule raises; the first may too. -/
theorem raises_of_second {α : Type} {x : Except Fault α} {g : α → Except Fault (List Write)} (hx : OkOrEnd x)
    (hg : ∀ a, g a = .error endFault) (hr : ruleDiff i s = x >>= g) : RaisesAtTheEnd s i :=
  raisesAtTheEnd_of_ruleDiff (hr.trans (hx.bind_error hg))

section
variable {ea : Ea} (r : Reg16) (sr : Sreg) (imm : Imm) (count : ShiftCount) (l : Bool)
  (hread : readOp s .word (.mem ea) = .error endFault) (hwrite : ∀ v, writeOp s .word (.mem ea) v = .error endFault)
  (hw : (Operand.mem ea).width = .word)
include hread hwrite hw

/-- Each record with a word operand in memory reads or writes it before anything else can fail. -/
theorem wordOperandForms_raise :
    ∀ i ∈ wordOperandForms (.mem ea) r sr imm count l, RaisesAtTheEnd s i := by
  have hread' : readOp s (Operand.mem ea).width (.mem ea) = .error endFault := by rw [hw]; exact hread
  have hwrite' (v : Nat) : writeOp s (Operand.mem ea).width (.mem ea) v = .error endFault := by rw [hw]; exact hwrite v
  simp only [wordOperandForms, List.forall_mem_append, List.forall_mem_cons, List.not_mem_nil, false_implies,
    implies_true, and_true]
  have hsrc {i : Instr} {f : Nat → Nat → Except Fault (List Write)}
      (hr : ruleDiff i s = readOp s .word (.reg16 r) >>= fun a => readOp s .word (.mem ea) >>= f a) :
      RaisesAtTheEnd s i := raises_of_second (readOp_word_okOrEnd _) (fun _ => bind_error hread _) hr
  refine ⟨⟨⟨⟨⟨?transfer, ?arithmetic⟩, ?unary⟩, ?logic⟩, ?shift⟩, ?jump⟩
  case transfer =>
    refine ⟨?_, raises_of_first hread rfl, ?_, raises_of_first hread rfl, ?_, ?_, ?_, raises_of_first hread rfl⟩
    · exact raises_of_second (readOp_word_okOrEnd (.reg16 r)) (fun _ => bind_error (hwrite _) _) rfl
    · exact raises_of_second (okOrEnd_ok (immVal _ imm)) (fun _ => bind_error (hwrite' _) _) rfl
    · exact raises_of_second (okOrEnd_ok (s.seg sr).toNat) (fun _ => bind_error (hwrite _) _) rfl
    · exact raises_of_first (bind_error hread _) rfl
    · exact raises_of_second (pop16_okOrEnd 1) (fun _ => bind_error (hwrite _) _) rfl
  case arithmetic =>
    exact ⟨raises_of_first hread rfl, hsrc rfl, raises_of_first hread' rfl,
      raises_of_first hread rfl, hsrc rfl, raises_of_first hread' rfl,
      raises_of_first hread rfl, hsrc rfl, raises_of_first hread' rfl,
      raises_of_first hread rfl, hsrc rfl, raises_of_first hread' rfl,
      raises_of_first hread rfl, hsrc rfl, raises_of_first hread' rfl⟩
  case unary =>
    exact ⟨raises_of_first hread' rfl, raises_of_first hread' rfl, raises_of_first hread' rfl,
      raises_of_first hread' rfl, raises_of_first hread' rfl, raises_of_first hread' rfl, raises_of_first hread' rfl,
      raises_of_first hread' rfl⟩
  case logic =>
    exact ⟨raises_of_first hread rfl, hsrc rfl, raises_of_first hread' rfl,
      raises_of_first hread rfl, hsrc rfl, raises_of_first hread' rfl,
      raises_of_first hread rfl, hsrc rfl, raises_of_first hread' rfl,
      raises_of_first hread rfl, raises_of_first hread' rfl⟩
  case shift =>
    exact ⟨raises_of_first hread' rfl, raises_of_first hread' rfl, raises_of_first hread' rfl,
      raises_of_first hread' rfl, raises_of_first hread' rfl, raises_of_first hread' rfl, raises_of_first hread' rfl⟩
  case jump => exact ⟨raises_of_first hread rfl, raises_of_first hread rfl⟩

end

/-! ### Strings -/

/-- An element that raises makes the step raise, if one is made (46_string R351). -/
theorem stringDiff_error {element : State → Except Fault (List Write)} (h : element s = .error endFault) {rp : Rep}
    (hr : rp = .none ∨ s.reg .cx ≠ 0) (index : List Reg16) (loads : Option Width) (compares : Bool) :
    stringDiff i s rp element index loads compares = .error endFault := by
  unfold stringDiff
  split
  next => exact bind_error h _
  next hne =>
    have hcx : (s.reg .cx).toNat ≠ 0 := fun h0 => hr.resolve_left hne (BitVec.eq_of_toNat_eq h0)
    obtain ⟨n, hn⟩ := Nat.exists_eq_succ_of_ne_zero hcx
    rw [hn]
    exact bind_error (bind_error h _) _

section
variable {rp : Rep} (hr : rp = .none ∨ s.reg .cx ≠ 0)
include hr

theorem stringSource_raises (h : sourceAddr s + 1 = memSize) :
    ∀ i ∈ [Instr.movs .word rp, .cmps .word rp, .lods .word rp], RaisesAtTheEnd s i := by
  have hread := memRead_word_end s h
  simp only [List.forall_mem_cons, List.not_mem_nil, false_implies, implies_true, and_true]
  exact ⟨raisesAtTheEnd_of_ruleDiff (stringDiff_error (element := movsElement .word) (bind_error hread _) hr
      [.si, .di] none false),
    raisesAtTheEnd_of_ruleDiff (stringDiff_error (element := cmpsElement .word) (bind_error hread _) hr
      [.si, .di] none true),
    raisesAtTheEnd_of_ruleDiff (stringDiff_error (element := lodsElement .word) (bind_error hread _) hr
      [.si] (some .word) false)⟩

theorem stringDest_raises (h : destAddr s + 1 = memSize) :
    ∀ i ∈ [Instr.movs .word rp, .cmps .word rp, .scas .word rp, .stos .word rp], RaisesAtTheEnd s i := by
  have hread := memRead_word_end s h
  have hwrite := memWrite_word_end s h
  have hsource : OkOrEnd (memRead s .word (sourceAddr s)) := memRead_word_okOrEnd (phys_lt _ _)
  have hacc : OkOrEnd (readOp s .word (acc .word)) := readOp_word_okOrEnd _
  simp only [List.forall_mem_cons, List.not_mem_nil, false_implies, implies_true, and_true]
  exact ⟨raisesAtTheEnd_of_ruleDiff (stringDiff_error (element := movsElement .word)
      (hsource.bind_error fun _ => bind_error (hwrite _) _) hr [.si, .di] none false),
    raisesAtTheEnd_of_ruleDiff (stringDiff_error (element := cmpsElement .word)
      (hsource.bind_error fun _ => bind_error hread _) hr [.si, .di] none true),
    raisesAtTheEnd_of_ruleDiff (stringDiff_error (element := scasElement .word)
      (hacc.bind_error fun _ => bind_error hread _) hr [.di] none true),
    raisesAtTheEnd_of_ruleDiff (stringDiff_error (element := stosElement .word)
      (hacc.bind_error fun _ => bind_error (hwrite _) _) hr [.di] none false)⟩

end

end

/-- Settles O55: in each record the access in question is made before anything else can fail another way. -/
theorem accessBeyondTheSpaceFaults : Obligations.AccessBeyondTheSpaceFaults := by
  refine fun s r sr ea op imm count l n sg => ⟨fun ha hw => ?operand, fun ha => ?far, fun ha => ?push1,
    fun ha => ?push2, fun ha => ?pop1, fun ha => ?pop2, fun rp hr => ⟨fun ha => ?source, fun ha => ?dest⟩⟩
  case operand =>
    have hlast : eaPhys s ea + 1 = memSize := by rw [ha]
    have hread : readOp s .word (.mem ea) = .error endFault := memRead_word_end s hlast
    have hwrite (v : Nat) : writeOp s .word (.mem ea) v = .error endFault := memWrite_word_end s hlast v
    have hwidth : (Operand.mem ea).width = .word := by simp [Operand.width, hw]
    refine List.forall_mem_append.2 ⟨wordOperandForms_raise r sr imm count l hread hwrite hwidth,
      List.forall_mem_cons.2 ⟨?_, List.forall_mem_singleton.2 ?_⟩⟩
    · exact raises_of_first hread rfl
    · exact raises_of_second (readOp_word_okOrEnd (acc .word)) (fun _ => bind_error (hwrite _) _) rfl
  case far =>
    have hfar := readFar_end ha
    simp only [List.forall_mem_cons, List.not_mem_nil, false_implies, implies_true, and_true]
    exact ⟨raises_of_first hfar rfl, raises_of_first hfar rfl, raises_of_first hfar rfl, raises_of_first hfar rfl⟩
  case push1 =>
    have hpush (v : Word) : push16 s v 1 = .error endFault := memWrite_word_end s (by rw [pushAddr_one, ha]) _
    simp only [List.forall_mem_cons, List.not_mem_nil, false_implies, implies_true, and_true]
    exact ⟨raises_of_second (pushedValue_okOrEnd op) (fun _ => bind_error (hpush _) _) rfl,
      raises_of_second (pushedValue_okOrEnd (.reg16 r)) (fun _ => bind_error (hpush _) _) rfl,
      raises_of_first (hpush _) rfl, raises_of_first (hpush _) rfl, raises_of_first (hpush _) rfl,
      raises_of_second (readOp_word_okOrEnd op) (fun _ => bind_error (hpush _) _) rfl,
      raises_of_first (hpush _) rfl,
      raises_of_second (readFar_okOrEnd ea) (fun _ => bind_error (hpush _) _) rfl⟩
  case push2 =>
    have hpush (v : Word) : push16 s v 2 = .error endFault := memWrite_word_end s (by rw [pushAddr_two, ha]) _
    have hcall (i : Instr) (sg off : Word) : callFarDiff i s sg off = .error endFault :=
      (push16_okOrEnd _ 1).bind_error fun _ => bind_error (hpush _) _
    simp only [List.forall_mem_cons, List.not_mem_nil, false_implies, implies_true, and_true]
    exact ⟨raisesAtTheEnd_of_ruleDiff (hcall _ sg n),
      raises_of_second (readFar_okOrEnd ea) (fun _ => hcall (.callFarInd ea) _ _) rfl⟩
  case pop1 =>
    have hpop : pop16 s 1 = .error endFault := bind_error (memRead_word_end s (by rw [popAddr_one, ha])) _
    simp only [List.forall_mem_cons, List.not_mem_nil, false_implies, implies_true, and_true]
    exact ⟨raises_of_first hpop rfl, raises_of_first hpop rfl, raises_of_first hpop rfl, raises_of_first hpop rfl,
      raises_of_first hpop rfl, raises_of_first hpop rfl, raises_of_first hpop rfl, raises_of_first hpop rfl⟩
  case pop2 =>
    have hpop : pop16 s 2 = .error endFault := bind_error (memRead_word_end s (by rw [popAddr_two, ha])) _
    simp only [List.forall_mem_cons, List.not_mem_nil, false_implies, implies_true, and_true]
    exact ⟨raises_of_second (pop16_okOrEnd 1) (fun _ => bind_error hpop _) rfl,
      raises_of_second (pop16_okOrEnd 1) (fun _ => bind_error hpop _) rfl⟩
  case source => exact stringSource_raises hr (by rw [sourceAddr, ha])
  case dest => exact stringDest_raises hr (by rw [destAddr, ha])

end Sys2Proof.Machine
end

section
/-! PROOFS. One element of each string instruction (46_string R350, R352 to R356). -/

namespace Sys2Proof.Machine

/-! ### The bytes -/

/-- A record reads from its own bytes. -/
theorem reads_of_encode {bs : List Byte} {i : Instr} (hw : ∀ lk, WellFormed lk i = true) (h : encode i = bs) :
    Reads bs i := fun lk rest => by
  rw [← h]
  exact decodeOne_encode (hw lk) rest

/-- The byte of each string instruction, with the record of a repeat. -/
def stringBytes (w : Width) : List (Byte × (Rep → Instr)) :=
  [(0xA4, fun r => .movs w r), (0xA6, .cmps w), (0xAE, .scas w), (0xAC, .lods w), (0xAA, .stos w)]

/-- A string record under a repeat has the repeat's byte before its own. -/
theorem reads_string (w : Width) : ∀ e ∈ stringBytes w,
    Reads [e.1 + w.bit] (e.2 .none) ∧ Reads [0xF3, e.1 + w.bit] (e.2 .rep) ∧
      Reads [0xF2, e.1 + w.bit] (e.2 .repne) := by
  simp only [stringBytes, List.forall_mem_cons, List.not_mem_nil, false_implies, implies_true, and_true]
  refine ⟨?_, ?_, ?_, ?_, ?_⟩ <;>
    exact ⟨reads_of_encode (fun _ => rfl) (by cases w <;> rfl), reads_of_encode (fun _ => rfl) (by cases w <;> rfl),
      reads_of_encode (fun _ => rfl) (by cases w <;> rfl)⟩

/-! ### One element -/

section
variable {s : State} {w : Width}

theorem advance_eq (s : State) (w : Width) (r : Reg16) : advance s w r = .reg r (moved s w r) := by
  unfold advance stringDelta moved
  cases w <;> cases s.flag .DF <;> simp [accessSize, BitVec.sub_eq_add_neg]

theorem valueAt_lt (s : State) (w : Width) (a : Nat) : valueAt s w a < modulus w := by
  cases w with
  | byte => exact (s.byteAt a).isLt
  | word => exact wordAt_lt s a

theorem readOp_acc (s : State) (w : Width) : readOp s w (acc w) = .ok (operandVal s w (acc w)) :=
  readOp_ok (operandOk_acc s w)

/-- Index registers moved after other writes, which leave them alone. -/
theorem commit_advance_two (t : State) :
    commit [advance s w .si, advance s w .di] t = (t.setReg .si (moved s w .si)).setReg .di (moved s w .di) := by
  rw [advance_eq, advance_eq]
  rfl

theorem commit_advance_one (t : State) (r : Reg16) : commit [advance s w r] t = t.setReg r (moved s w r) := by
  rw [advance_eq]
  rfl

theorem advance_keepIp {l : List Reg16} : KeepIp (l.map (advance s w)) := by simp [KeepIp, advance, Write.key]

theorem frame_advance_two (t : State) :
    Frame t (commit [advance s w .si, advance s w .di] t) (touchRegs [.si, .di]) := by
  rw [commit_advance_two]
  exact (frame_setReg t .si _).trans (frame_setReg _ .di _)

theorem frame_advance_one (t : State) (r : Reg16) : Frame t (commit [advance s w r] t) (touchRegs [r]) := by
  rw [commit_advance_one]
  exact frame_setReg t r _

/-- MOVS: the element at `ds:si` stands at `es:di`. -/
theorem movs_element (hs : .movs ∈ s.cfg.simulated) (hsrc : accessOk w (sourceAddr s) = true)
    (hdst : accessOk w (destAddr s) = true) :
    ExecNext (.movs w .none) s fun t => t.ip = s.ip + 1 ∧ t.reg .si = moved s w .si ∧ t.reg .di = moved s w .di ∧
      (s.mem.wf = true → BytesHold t w (destAddr s) (valueAt s w (sourceAddr s))) ∧
      Frame s t ((touchRegs [.si, .di]).add (touchBytes (bytesOf w (destAddr s)))) := by
  have hr : ruleDiff (.movs w .none) s = .ok (.ip (s.ip + 1) ::
      (storeBytes w (destAddr s) (valueAt s w (sourceAddr s)) ++ [advance s w .si, advance s w .di])) := by
    change (movsElement w s >>= _) = _
    rw [movsElement, memRead_ok hsrc]
    simp only [bind, Except.bind]
    rw [memWrite_ok hdst]
    rfl
  refine (execNext_of_writes rfl hs hr ((storeBytes_keepIp _ _ _).append (advance_keepIp (l := [.si, .di])))
    (x := (touchBytes (bytesOf w (destAddr s))).add (touchRegs [.si, .di])) ?frame).imp ?_
  case frame =>
    rw [commit_append]
    exact (frame_storeBytes s _ _ _).trans (frame_advance_two _)
  rintro t ⟨rfl, hframe⟩
  refine ⟨rfl, ?si, ?di, fun hm => ?bytes, hframe.comm⟩
  case si => simp [commit_append, commit_advance_two, -commit_cons]
  case di => simp [commit_append, commit_advance_two, -commit_cons]
  case bytes =>
    rw [commit_append]
    exact (storeBytes_hold _ hm hdst).of_frame ((frame_advance_two _).trans (frame_setIp _ _)) fun _ _ => nofun

/-- CMPS: the source element is the minuend. -/
theorem cmps_element (hs : .cmps ∈ s.cfg.simulated) (hsrc : accessOk w (sourceAddr s) = true)
    (hdst : accessOk w (destAddr s) = true) :
    ExecNext (.cmps w .none) s fun t => t.ip = s.ip + 1 ∧ t.reg .si = moved s w .si ∧ t.reg .di = moved s w .di ∧
      SubFlags t w (valueAt s w (sourceAddr s)) (valueAt s w (destAddr s)) 0 ∧
      Frame s t ((touchRegs [.si, .di]).add (touchFlags arithFlags)) := by
  have hr : ruleDiff (.cmps w .none) s = .ok (.ip (nextIp (.cmps w .none) s) :: ([advance s w .si, advance s w .di] ++
      flagWrites s (aluSub w (valueAt s w (sourceAddr s)) (valueAt s w (destAddr s)) false).sixFlags [])) := by
    change (cmpsElement w s >>= _) = _
    rw [cmpsElement, memRead_ok hsrc, memRead_ok hdst, ← AluResult.flagsAll_eq]
    rfl
  refine (execNext_of_flagWrites rfl hs hr (advance_keepIp (l := [.si, .di])) (sixFlags_nodup _)
    (frame_advance_two s)).imp ?_
  rintro t ⟨hip, hreg, hflags, hframe⟩
  rw [undefTouched_nil] at hframe
  rw [commit_advance_two] at hreg
  exact ⟨hip, by simp [hreg], by simp [hreg], subFlags_of (c := false) (valueAt_lt s w _) (valueAt_lt s w _) hflags,
    hframe⟩

/-- SCAS: the accumulator is the minuend. -/
theorem scas_element (hs : .scas ∈ s.cfg.simulated) (hdst : accessOk w (destAddr s) = true) :
    ExecNext (.scas w .none) s fun t => t.ip = s.ip + 1 ∧ t.reg .di = moved s w .di ∧
      SubFlags t w (operandVal s w (acc w)) (valueAt s w (destAddr s)) 0 ∧
      Frame s t ((touchRegs [.di]).add (touchFlags arithFlags)) := by
  have hr : ruleDiff (.scas w .none) s = .ok (.ip (nextIp (.scas w .none) s) :: ([advance s w .di] ++
      flagWrites s (aluSub w (operandVal s w (acc w)) (valueAt s w (destAddr s)) false).sixFlags [])) := by
    change (scasElement w s >>= _) = _
    rw [scasElement, readOp_acc, memRead_ok hdst, ← AluResult.flagsAll_eq]
    rfl
  refine (execNext_of_flagWrites rfl hs hr (advance_keepIp (l := [.di])) (sixFlags_nodup _)
    (frame_advance_one s .di)).imp ?_
  rintro t ⟨hip, hreg, hflags, hframe⟩
  rw [undefTouched_nil] at hframe
  rw [commit_advance_one] at hreg
  exact ⟨hip, by simp [hreg], subFlags_of (c := false) (operandVal_lt (acc_isAt w)) (valueAt_lt s w _) hflags, hframe⟩

theorem loadAcc_eq (s : State) (w : Width) (v : Nat) : [loadAcc w v] = operandWrites s w (acc w) v := by
  cases w <;> rfl

/-- LODS: the accumulator holds the element at `ds:si`. -/
theorem lods_element (hs : .lods ∈ s.cfg.simulated) (hsrc : accessOk w (sourceAddr s) = true) :
    ExecNext (.lods w .none) s fun t => t.ip = s.ip + 1 ∧ t.reg .si = moved s w .si ∧
      OperandHolds s t w (acc w) (valueAt s w (sourceAddr s)) ∧
      Frame s t ((touchRegs [.si]).add (touchOperand s w (acc w))) := by
  have hr : ruleDiff (.lods w .none) s = .ok (.ip (s.ip + 1) ::
      (operandWrites s w (acc w) (valueAt s w (sourceAddr s)) ++ [advance s w .si])) := by
    change (lodsElement w s >>= _) = _
    rw [lodsElement, memRead_ok hsrc, ← loadAcc_eq]
    rfl
  refine (execNext_of_writes rfl hs hr ((operandWrites_keepIp s _ _ _).append (advance_keepIp (l := [.si])))
    (x := (touchOperand s w (acc w)).add (touchRegs [.si])) ?frame).imp ?_
  case frame =>
    rw [commit_append]
    exact (frame_operandWrites s s w (acc w) _).trans (frame_advance_one _ .si)
  rintro t ⟨rfl, hframe⟩
  refine ⟨rfl, ?si, ?acc, hframe.comm⟩
  case si => simp [commit_append, commit_advance_one, -commit_cons]
  case acc =>
    rw [commit_append, commit_advance_one]
    cases w with
    | byte => exact (State.setReg8_reg8 s .al .al _).trans (if_pos rfl)
    | word => simp [OperandHolds, acc, operandWrites]

/-- STOS: the accumulator stands at `es:di`. -/
theorem stos_element (hs : .stos ∈ s.cfg.simulated) (hdst : accessOk w (destAddr s) = true) :
    ExecNext (.stos w .none) s fun t => t.ip = s.ip + 1 ∧ t.reg .di = moved s w .di ∧
      (s.mem.wf = true → BytesHold t w (destAddr s) (operandVal s w (acc w))) ∧
      Frame s t ((touchRegs [.di]).add (touchBytes (bytesOf w (destAddr s)))) := by
  have hr : ruleDiff (.stos w .none) s = .ok (.ip (s.ip + 1) ::
      (storeBytes w (destAddr s) (operandVal s w (acc w)) ++ [advance s w .di])) := by
    change (stosElement w s >>= _) = _
    rw [stosElement, readOp_acc]
    simp only [bind, Except.bind]
    rw [memWrite_ok hdst]
    rfl
  refine (execNext_of_writes rfl hs hr ((storeBytes_keepIp _ _ _).append (advance_keepIp (l := [.di])))
    (x := (touchBytes (bytesOf w (destAddr s))).add (touchRegs [.di])) ?frame).imp ?_
  case frame =>
    rw [commit_append]
    exact (frame_storeBytes s _ _ _).trans (frame_advance_one _ .di)
  rintro t ⟨rfl, hframe⟩
  refine ⟨rfl, ?di, fun hm => ?bytes, hframe.comm⟩
  case di => simp [commit_append, commit_advance_one, -commit_cons]
  case bytes =>
    rw [commit_append]
    exact (storeBytes_hold _ hm hdst).of_frame ((frame_advance_one _ .di).trans (frame_setIp _ _)) fun _ _ => nofun

end

/-- Settles O42: each element is one access or two and the index registers moved on. -/
theorem stringElementResult : Obligations.StringElementResult := by
  refine ⟨fun w => reads_string w, fun s w src dst hsrc hdst => ?_⟩
  subst hsrc hdst
  refine ⟨fun hm hs ha hb => (movs_element hs ha hb).imp ?movs, fun hs ha hb => (cmps_element hs ha hb).imp ?cmps,
    fun hs hb => (scas_element hs hb).imp ?scas, fun hs ha => (lods_element hs ha).imp ?lods,
    fun hm hs hb => (stos_element hs hb).imp ?stos⟩
  case movs => exact fun t ⟨hip, hsi, hdi, hbytes, hframe⟩ => ⟨hip, hbytes hm, hsi, hdi, hframe⟩
  case cmps => exact fun t ⟨hip, hsi, hdi, hflags, hframe⟩ => ⟨hip, hflags, hsi, hdi, hframe⟩
  case scas => exact fun t ⟨hip, hdi, hflags, hframe⟩ => ⟨hip, hflags, hdi, hframe⟩
  case lods => exact fun t ⟨hip, hsi, hacc, hframe⟩ => ⟨hip, hacc, hsi, hframe⟩
  case stos => exact fun t ⟨hip, hdi, hbytes, hframe⟩ => ⟨hip, hbytes hm, hdi, hframe⟩

end Sys2Proof.Machine
end

section
/-! PROOFS. A repeat is one element and then the rest (46_string R351): the diff of a repeat, committed, is the working
copies the loop ends with. -/

namespace Sys2Proof.Machine

/-! ### What an element writes -/

/-- The writes of an element: memory, the index registers, the accumulator it loads, and the flags where it compares. -/
def Write.OfElement (index : List Reg16) (loads : Option Width) (compares : Bool) : Write → Prop
  | .mem _ _ => True
  | .reg r _ => r ∈ index ∨ r = .ax ∧ loads = some .word
  | .reg8 r _ => r = .al ∧ loads = some .byte
  | .flag f _ => compares = true ∧ f ∈ arithFlags
  | .ip _ | .seg _ _ | .draw => False

/-- Each element answers such writes alone. -/
def ElementWrites (element : State → Except Fault (List Write)) (index : List Reg16) (loads : Option Width)
    (compares : Bool) : Prop :=
  ∀ t ws, element t = .ok ws → ∀ e ∈ ws, e.OfElement index loads compares

section
variable (w : Width)

/-- A word or a byte stored is memory entries. -/
theorem memWrite_isMem {t : State} {a v : Nat} {ws : List Write} (h : memWrite t w a v = .ok ws) :
    ∀ e ∈ ws, e.isMem = true := by
  cases w with
  | byte =>
    obtain ⟨_, -, hws⟩ := bind_eq_ok_iff.1 h
    cases hws
    simp [Write.isMem]
  | word =>
    obtain ⟨_, -, h⟩ := bind_eq_ok_iff.1 h
    obtain ⟨_, -, hws⟩ := bind_eq_ok_iff.1 h
    cases hws
    simp [Write.isMem]

theorem ofElement_of_isMem {index : List Reg16} {loads : Option Width} {compares : Bool} {e : Write}
    (h : e.isMem = true) : e.OfElement index loads compares := by
  cases e with
  | mem => trivial
  | _ => cases h

theorem movsElement_writes : ElementWrites (movsElement w) [.si, .di] none false := fun t ws h => by
  obtain ⟨_, -, h⟩ := bind_eq_ok_iff.1 h
  obtain ⟨ms, hms, hws⟩ := bind_eq_ok_iff.1 h
  cases hws
  exact List.forall_mem_append.2 ⟨fun e he => ofElement_of_isMem (memWrite_isMem w hms e he),
    by simp [advance, Write.OfElement]⟩

theorem cmpsElement_writes : ElementWrites (cmpsElement w) [.si, .di] none true := fun t ws h => by
  obtain ⟨_, -, h⟩ := bind_eq_ok_iff.1 h
  obtain ⟨_, -, hws⟩ := bind_eq_ok_iff.1 h
  cases hws
  simp [advance, AluResult.flagsAll, Write.OfElement, arithFlags]

theorem scasElement_writes : ElementWrites (scasElement w) [.di] none true := fun t ws h => by
  obtain ⟨_, -, h⟩ := bind_eq_ok_iff.1 h
  obtain ⟨_, -, hws⟩ := bind_eq_ok_iff.1 h
  cases hws
  simp [advance, AluResult.flagsAll, Write.OfElement, arithFlags]

theorem lodsElement_writes : ElementWrites (lodsElement w) [.si] (some w) false := fun t ws h => by
  obtain ⟨_, -, hws⟩ := bind_eq_ok_iff.1 h
  cases hws
  cases w <;> simp [loadAcc, advance, Write.OfElement]

theorem stosElement_writes : ElementWrites (stosElement w) [.di] none false := fun t ws h => by
  obtain ⟨_, -, h⟩ := bind_eq_ok_iff.1 h
  obtain ⟨ms, hms, hws⟩ := bind_eq_ok_iff.1 h
  cases hws
  exact List.forall_mem_append.2 ⟨fun e he => ofElement_of_isMem (memWrite_isMem w hms e he),
    by simp [advance, Write.OfElement]⟩

end

/-! ### The working copies -/

/-- What the working copies `u` of a repeat share with the state `s` it started from, beside the memory. -/
structure WorkingCopies (index : List Reg16) (loads : Option Width) (compares : Bool) (s u : State) : Prop where
  ip : u.ip = s.ip
  seg : ∀ r, u.seg r = s.seg r
  reg : ∀ r, r ≠ .cx → r ∉ index → (r = .ax → loads = none) → u.reg r = s.reg r
  ah : loads = some .byte → u.reg8 .ah = s.reg8 .ah
  flag : ∀ f, ¬(compares = true ∧ f ∈ arithFlags) → u.flag f = s.flag f

section
variable {index : List Reg16} {loads : Option Width} {compares : Bool} {s u : State}

theorem WorkingCopies.refl (s : State) : WorkingCopies index loads compares s s :=
  ⟨rfl, fun _ => rfl, fun _ _ _ _ => rfl, fun _ => rfl, fun _ _ => rfl⟩

/-- A write of a register that holds no accumulator keeps `ah`. -/
theorem setReg_ah {r : Reg16} (h : r ≠ .ax) (v : Word) : (u.setReg r v).reg8 .ah = u.reg8 .ah := by
  simp [State.reg8, Reg8.parent, Ne.symm h]

theorem WorkingCopies.setCx (h : WorkingCopies index loads compares s u) (v : Word) :
    WorkingCopies index loads compares s (u.setReg .cx v) :=
  ⟨h.ip, h.seg, fun r hcx hi hax => (by simp [hcx, h.reg r hcx hi hax]),
    fun hl => (setReg_ah (by decide) v).trans (h.ah hl), h.flag⟩

theorem WorkingCopies.apply (hax : .ax ∉ index) (h : WorkingCopies index loads compares s u) {e : Write}
    (he : e.OfElement index loads compares) : WorkingCopies index loads compares s (e.apply u) := by
  cases e with
  | ip | seg | draw => exact he.elim
  | mem a v =>
    refine ⟨?_, fun r => ?_, fun r => ?_, ?_, fun f => ?_⟩
    · simpa using h.ip
    · simpa using h.seg r
    · simpa using h.reg r
    · simpa using h.ah
    · simpa using h.flag f
  | reg r v =>
    refine ⟨h.ip, h.seg, fun q hcx hi hq => ?kept, fun hl => ?ah, h.flag⟩
    case kept =>
      have hne : q ≠ r := by
        rintro rfl
        obtain hr | ⟨hr, hl⟩ := he
        · exact hi hr
        · exact absurd ((hq hr).symm.trans hl) nofun
      simpa [hne] using h.reg q hcx hi hq
    case ah =>
      have hne : r ≠ .ax := by
        rintro rfl
        obtain hr | ⟨-, hw⟩ := he
        · exact hax hr
        · exact absurd (hl.symm.trans hw) nofun
      exact (setReg_ah hne v).trans (h.ah hl)
  | reg8 r v =>
    obtain ⟨rfl, hl⟩ := he
    refine ⟨h.ip, h.seg, fun q hcx hi hq => ?kept, fun hl => ?ah, h.flag⟩
    case kept =>
      have hne : q ≠ .ax := fun hqax => absurd ((hq hqax).symm.trans hl) nofun
      exact (State.setReg8_reg_other u .al v hne).trans (h.reg q hcx hi hq)
    case ah => exact (State.setReg8_reg8 u .al .ah v).trans ((if_neg (by decide)).trans (h.ah hl))
  | flag f b =>
    refine ⟨h.ip, h.seg, h.reg, h.ah, fun g hg => ?_⟩
    have hne : g ≠ f := fun hgf => hg (hgf ▸ he)
    simpa [hne] using h.flag g hg

theorem WorkingCopies.commit_writes (hax : .ax ∉ index) {ws : List Write}
    (he : ∀ e ∈ ws, e.OfElement index loads compares) (h : WorkingCopies index loads compares s u) :
    WorkingCopies index loads compares s (commit ws u) := by
  induction ws generalizing u with
  | nil => exact h
  | cons e ws ih => exact ih (fun e he' => he e (.tail _ he')) (h.apply hax (he e (.head ws)))

/-- Beside the fields, the writes of an element do what its memory entries do. -/
theorem sameRest_filter {ws : List Write} (he : ∀ e ∈ ws, e.OfElement index loads compares) {x y : State}
    (h : SameRest x y) : SameRest (commit ws x) (commit (ws.filter Write.isMem) y) := by
  induction ws generalizing x y with
  | nil => exact h
  | cons e ws ih =>
    have he' := fun e hmem => he e (.tail _ hmem)
    cases e with
    | mem a v => exact ih he' (h.setByte a v)
    | reg | reg8 | flag => exact ih he' ((Write.sameRest_apply rfl x).trans h)
    | ip | seg | draw => exact (he _ (.head ws)).elim

/-- The loop of a repeat: the working copies, and the memory as its entries leave it. -/
theorem workingCopies_repeatElements {element : State → Except Fault (List Write)}
    (hel : ElementWrites element index loads compares) (hax : .ax ∉ index) (stop : State → Bool) {n : Nat}
    {t : State} {ms : List Write} (h : WorkingCopies index loads compares s t) {y : State} (hy : SameRest t y)
    (hok : repeatElements element stop n t = .ok (ms, u)) :
    WorkingCopies index loads compares s u ∧ SameRest u (commit ms y) ∧ ∀ e ∈ ms, e.isMem = true := by
  induction n generalizing t ms y with
  | zero =>
    cases hok
    exact ⟨h, hy, nofun⟩
  | succ n ih =>
    obtain ⟨ws, hws, hok⟩ := bind_eq_ok_iff.1 hok
    have hcopies := (h.commit_writes hax (hel t ws hws)).setCx (t.reg .cx - 1)
    have hrest : SameRest ((commit ws t).setReg .cx (t.reg .cx - 1)) (commit (ws.filter Write.isMem) y) :=
      (Write.sameRest_apply (e := .reg .cx _) rfl _).trans (sameRest_filter (hel t ws hws) hy)
    have hmem : ∀ e ∈ ws.filter Write.isMem, e.isMem = true := fun e he => (List.mem_filter.1 he).2
    dsimp only at hok
    split at hok
    next => cases hok; exact ⟨hcopies, hrest, hmem⟩
    next =>
      obtain ⟨⟨ms', u'⟩, hms, hok⟩ := bind_eq_ok_iff.1 hok
      cases hok
      obtain ⟨hcopies', hrest', hmem'⟩ := ih hcopies hrest hms
      rw [commit_append]
      exact ⟨hcopies', hrest', List.forall_mem_append.2 ⟨hmem, hmem'⟩⟩

/-! ### The entries that restore them -/

/-- A write that gives a field the value it has in `u`. -/
def Write.Restores (u : State) : Write → Prop
  | .reg r v => v = u.reg r
  | .reg8 r v => r = .al ∧ v = u.reg8 .al
  | .flag f b => b = u.flag f
  | .ip _ | .seg _ _ | .mem _ _ | .draw => False

/-- A word is its two halves. -/
theorem reg_ax_of_halves {t : State} (hl : t.reg8 .al = u.reg8 .al) (hh : t.reg8 .ah = u.reg8 .ah) :
    t.reg .ax = u.reg .ax := by
  rw [← concatBytes_hi_lo (t.reg .ax), ← concatBytes_hi_lo (u.reg .ax)]
  exact congrArg₂ concatBytes hh hl

/-- Both halves of `ax` agree with `u`, or no byte half is among the writes. -/
def HighKept (u : State) (ws : List Write) (t : State) : Prop :=
  t.reg8 .ah = u.reg8 .ah ∨ ∀ e ∈ ws, ∀ r v, e ≠ .reg8 r v

theorem HighKept.tail {e : Write} {ws : List Write} {t : State} (h : HighKept u (e :: ws) t) (he : e.Restores u) :
    HighKept u ws (e.apply t) := by
  refine h.imp (fun hah => ?_) fun h e he => h e (.tail _ he)
  cases e with
  | ip | seg | mem | draw => exact he.elim
  | reg r v =>
    cases he
    by_cases hr : r = .ax
    · subst hr
      simp [State.reg8, Reg8.parent]
    · exact (setReg_ah hr _).trans hah
  | reg8 r v =>
    obtain ⟨rfl, -⟩ := he
    exact (State.setReg8_reg8 t .al .ah v).trans hah
  | flag f b => exact hah

/-- A restoring write keeps what is restored, and restores its own field. -/
theorem Write.Restores.value_apply {e : Write} {ws : List Write} {t : State} (he : e.Restores u)
    (hah : HighKept u (e :: ws) t) {q : Key} (h : q.value t = q.value u ∨ e.key = some q) :
    q.value (e.apply t) = q.value u := by
  by_cases hk : e.key = some q
  case neg => exact (Write.value_apply hk t).trans (h.resolve_right hk)
  case pos =>
    cases e with
    | ip | seg | mem | draw => exact he.elim
    | reg r v => cases hk; cases he; simp [Key.value]
    | flag f b => cases hk; cases he; simp [Key.value]
    | reg8 r v =>
      obtain ⟨rfl, rfl⟩ := he
      cases hk
      have hh := hah.resolve_right fun hno => hno _ (.head ws) _ _ rfl
      exact congrArg BitVec.toNat (reg_ax_of_halves ((State.setReg8_reg8 t .al .al _).trans (if_pos rfl))
        ((State.setReg8_reg8 t .al .ah _).trans hh))

theorem value_commit_restores {ws : List Write} (hws : ∀ e ∈ ws, e.Restores u) {t : State} (hah : HighKept u ws t)
    {q : Key} (h : q.value t = q.value u ∨ ∃ e ∈ ws, e.key = some q) :
    q.value (commit ws t) = q.value u := by
  induction ws generalizing t with
  | nil => exact h.resolve_right fun ⟨_, he, _⟩ => absurd he List.not_mem_nil
  | cons e ws ih =>
    have he := hws e (.head ws)
    refine ih (fun e he => hws e (.tail _ he)) (hah.tail he) ?_
    by_cases hq : ∃ e ∈ ws, e.key = some q
    · exact .inr hq
    · refine .inl (he.value_apply hah (h.imp_right ?_))
      rintro ⟨d, hd, hkey⟩
      obtain rfl | hd := List.mem_cons.1 hd
      · exact hkey
      · exact absurd ⟨d, hd, hkey⟩ hq

/-- The writes of a field that a repeat ends with (46_string R351). -/
def restoredLoad (u : State) : Option Width → List Write
  | some .byte => [.reg8 .al (u.reg8 .al)]
  | some .word => [.reg .ax (u.reg .ax)]
  | none => []

/-- All the field entries a repeat ends with. -/
def restoredFields (index : List Reg16) (loads : Option Width) (compares : Bool) (u : State) : List Write :=
  (index.map fun x => .reg x (u.reg x)) ++ [.reg .cx (u.reg .cx)] ++ restoredLoad u loads ++
    if compares then workingFlags u else []

theorem restoredFields_restores (index : List Reg16) (loads : Option Width) (compares : Bool) (u : State) :
    ∀ e ∈ restoredFields index loads compares u, e.Restores u := by
  refine List.forall_mem_append.2 ⟨List.forall_mem_append.2 ⟨List.forall_mem_append.2 ⟨?index, ?cx⟩, ?load⟩, ?flags⟩
  case index => exact List.forall_mem_map.2 fun _ _ => rfl
  case cx => exact List.forall_mem_singleton.2 rfl
  case load =>
    match loads with
    | some .byte => exact List.forall_mem_singleton.2 ⟨rfl, rfl⟩
    | some .word => exact List.forall_mem_singleton.2 rfl
    | none => exact nofun
  case flags =>
    split
    · exact List.forall_mem_map.2 fun _ _ => rfl
    · exact nofun

theorem reg8_mem_restoredFields {r : Reg8} {v : Byte} (h : .reg8 r v ∈ restoredFields index loads compares u) :
    loads = some .byte := by
  match loads with
  | some .byte => rfl
  | some .word => cases compares <;> simp [restoredFields, restoredLoad, workingFlags] at h
  | none => cases compares <;> simp [restoredFields, restoredLoad, workingFlags] at h

/-- What a repeat may change has its entry. -/
theorem WorkingCopies.value_or_restored (h : WorkingCopies index loads compares s u) (q : Key) :
    q.value s = q.value u ∨ ∃ e ∈ restoredFields index loads compares u, e.key = some q := by
  cases q with
  | ip => exact .inl (congrArg BitVec.toNat h.ip.symm)
  | seg r => exact .inl (congrArg BitVec.toNat (h.seg r).symm)
  | flag f =>
    by_cases hf : compares = true ∧ f ∈ arithFlags
    case neg => exact .inl (congrArg Bool.toNat (h.flag f hf).symm)
    case pos =>
      obtain ⟨rfl, hf⟩ := hf
      exact .inr ⟨_, List.mem_append_right _ (List.mem_map_of_mem hf), rfl⟩
  | reg r =>
    by_cases hcx : r = .cx
    case pos =>
      subst hcx
      exact .inr ⟨.reg .cx (u.reg .cx), by simp [restoredFields], rfl⟩
    case neg =>
      by_cases hi : r ∈ index
      case pos => exact .inr ⟨.reg r (u.reg r), by simp [restoredFields, hi], rfl⟩
      case neg =>
        by_cases hr : r = .ax → loads = none
        case pos => exact .inl (congrArg BitVec.toNat (h.reg r hcx hi hr).symm)
        case neg =>
          obtain ⟨rfl, hl⟩ := Classical.not_imp.1 hr
          match loads, hl with
          | some .byte, _ => exact .inr ⟨.reg8 .al (u.reg8 .al), by simp [restoredFields, restoredLoad], rfl⟩
          | some .word, _ => exact .inr ⟨.reg .ax (u.reg .ax), by simp [restoredFields, restoredLoad], rfl⟩

theorem sameRest_commit_restores {ws : List Write} (hws : ∀ e ∈ ws, e.Restores u) (t : State) :
    SameRest (commit ws t) t := by
  induction ws generalizing t with
  | nil => exact ⟨rfl, rfl, rfl, rfl, rfl⟩
  | cons e ws ih =>
    refine (ih (fun e he => hws e (.tail _ he)) _).trans ?_
    have he := hws e (.head ws)
    cases e with
    | ip | seg | mem | draw => exact he.elim
    | reg | reg8 | flag => exact Write.sameRest_apply rfl t

theorem value_commit_isMem {ws : List Write} (hws : ∀ e ∈ ws, e.isMem = true) (t : State) (q : Key) :
    q.value (commit ws t) = q.value t := by
  induction ws generalizing t with
  | nil => rfl
  | cons e ws ih =>
    refine (ih (fun e he => hws e (.tail _ he)) _).trans (Write.value_apply ?_ t)
    have he := hws e (.head ws)
    cases e with
    | mem => exact nofun
    | _ => cases he

theorem keepIp_of_isMem {ws : List Write} (hws : ∀ e ∈ ws, e.isMem = true) : KeepIp ws := fun e he => by
  have hm := hws e he
  cases e with
  | mem => exact nofun
  | _ => cases hm

/-- The diff of a repeat, committed, is the working copies with `ip` past the record (46_string R351). -/
theorem WorkingCopies.commit_restored (h : WorkingCopies index loads compares s u) {ms : List Write}
    (hms : ∀ e ∈ ms, e.isMem = true) (hrest : SameRest u (commit ms s)) (v : Word) :
    commit (.ip v :: (ms ++ restoredFields index loads compares u)) s = u.setIp v := by
  have hcopies : WorkingCopies index loads compares (s.setIp v) (u.setIp v) := ⟨rfl, h.seg, h.reg, h.ah, h.flag⟩
  have hvalue (q : Key) : q.value ((commit ms s).setIp v) = q.value (s.setIp v) := by
    rw [← commit_setIp (keepIp_of_isMem hms)]
    exact value_commit_isMem hms _ q
  have hah : ((commit ms s).setIp v).reg8 .ah = s.reg8 .ah :=
    congrArg hiByte (BitVec.eq_of_toNat_eq (hvalue (.reg .ax)))
  have hrestores := restoredFields_restores index loads compares (u.setIp v)
  rw [commit_cons, Write.apply_ip, commit_append, commit_setIp (keepIp_of_isMem hms)]
  refine State.eq_of_values (fun q => ?_) ((sameRest_commit_restores hrestores _).trans hrest.symm)
  refine value_commit_restores (u := u.setIp v) hrestores ?_ ((hcopies.value_or_restored q).imp_left (hvalue q).trans)
  by_cases hl : loads = some .byte
  case pos => exact .inl (hah.trans (h.ah hl).symm)
  case neg =>
    right
    rintro _ he r w rfl
    exact hl (reg8_mem_restoredFields he)

end

/-! ### The step of a repeat -/

/-- The record `many` repeats, by `r`, the string instruction of the record `one`. -/
structure RepeatOf (one many : Instr) (k : Kind) (r : Rep) (element : State → Except Fault (List Write))
    (index : List Reg16) (loads : Option Width) (compares : Bool) : Prop where
  kindOne : recordKind one = some k
  kindMany : recordKind many = some k
  nextOne : ∀ s, nextIp one s = s.ip + 1
  nextMany : ∀ s, nextIp many s = s.ip + 2
  ruleOne : ∀ s, ruleDiff one s = stringDiff one s .none element index loads compares
  ruleMany : ∀ s, ruleDiff many s = stringDiff many s r element index loads compares
  writes : ElementWrites element index loads compares
  ax : .ax ∉ index
  repeats : r ≠ .none

theorem stringDiff_repeat {i : Instr} {s : State} {r : Rep} (hr : r ≠ .none)
    (element : State → Except Fault (List Write)) (index : List Reg16) (loads : Option Width) (compares : Bool) :
    stringDiff i s r element index loads compares =
      repeatElements element (fun t => compares && repeatStops r t) (s.reg .cx).toNat s >>= fun p =>
        .ok (.ip (nextIp i s) :: (p.1 ++ restoredFields index loads (compares && s.reg .cx != 0) p.2)) := by
  unfold stringDiff
  rw [if_neg hr]
  congr 1
  funext ⟨ms, u⟩
  match loads with
  | some .byte | some .word | none =>
    simp [restoredFields, restoredLoad, pure, Except.pure]

theorem repeatStops_iff (compares : Bool) (r : Rep) (t : State) : (compares && repeatStops r t) = true ↔
    compares = true ∧ (r = .rep ∧ t.flag .ZF = false ∨ r = .repne ∧ t.flag .ZF = true) := by
  cases r <;> simp [repeatStops]

/-- The loop from its first element on. -/
theorem repeatElements_succ {element : State → Except Fault (List Write)} {s s' : State} {ws : List Write}
    (he : element s = .ok ws) (hs' : s' = (commit ws s).setReg .cx (s.reg .cx - 1)) (stop : State → Bool) (n : Nat) :
    repeatElements element stop (n + 1) s = if stop s' then .ok (ws.filter Write.isMem, s') else
      repeatElements element stop n s' >>= fun p => .ok (ws.filter Write.isMem ++ p.1, p.2) := by
  rw [repeatElements, he, hs']
  rfl

/-- `cx` counts the elements left. -/
theorem exists_cx_eq_succ {s : State} (hcx : s.reg .cx ≠ 0) :
    ∃ n, (s.reg .cx).toNat = n + 1 ∧ (s.reg .cx - 1).toNat = n := by
  have hne : (s.reg .cx).toNat ≠ 0 := fun h0 => hcx (BitVec.eq_of_toNat_eq h0)
  exact ⟨(s.reg .cx).toNat - 1, by omega, by rw [BitVec.toNat_sub]; have := (s.reg .cx).isLt; simp; omega⟩

section
variable {one many : Instr} {k : Kind} {r : Rep} {element : State → Except Fault (List Write)} {index : List Reg16}
  {loads : Option Width} {compares : Bool} {s u : State} {ws ms : List Write} {f : Fault}
  (h : RepeatOf one many k r element index loads compares) (hs : k ∈ s.cfg.simulated)
include h hs

theorem RepeatOf.exec_one_error (he : element s = .error f) : exec one s = .fault f := by
  rw [exec_eq_complete h.kindOne, h.ruleOne, stringDiff, if_pos rfl, he]
  exact complete_error hs

theorem RepeatOf.exec_one_ok (he : element s = .ok ws) : exec one s = .next ((commit ws s).setIp (s.ip + 1)) := by
  have hr : ruleDiff one s = .ok (.ip (nextIp one s) :: ws) := by
    rw [h.ruleOne, stringDiff, if_pos rfl, he]
    rfl
  have hip : KeepIp ws := fun e hmem => by
    have hw := h.writes s ws he e hmem
    cases e with
    | ip => exact hw.elim
    | _ => exact nofun
  rw [exec_eq_commit h.kindOne hs hr, commit_cons, Write.apply_ip, commit_setIp hip, h.nextOne]

theorem RepeatOf.exec_many_error
    (he : repeatElements element (fun t => compares && repeatStops r t) (s.reg .cx).toNat s = .error f) :
    exec many s = .fault f := by
  rw [exec_eq_complete h.kindMany, h.ruleMany, stringDiff_repeat h.repeats, he]
  exact complete_error hs

theorem RepeatOf.exec_many_ok
    (he : repeatElements element (fun t => compares && repeatStops r t) (s.reg .cx).toNat s = .ok (ms, u)) :
    exec many s = .next (u.setIp (s.ip + 2)) := by
  have hr : ruleDiff many s = .ok (.ip (nextIp many s) ::
      (ms ++ restoredFields index loads (compares && s.reg .cx != 0) u)) := by
    rw [h.ruleMany, stringDiff_repeat h.repeats, he]
    rfl
  have hloop := workingCopies_repeatElements h.writes h.ax _ (.refl s) (y := s) ⟨rfl, rfl, rfl, rfl, rfl⟩ he
  obtain ⟨hcopies, hrest, hmem⟩ := hloop
  have hcopies' : WorkingCopies index loads (compares && s.reg .cx != 0) s u := by
    by_cases hcx : s.reg .cx = 0
    case pos =>
      rw [hcx] at he
      cases he
      exact .refl s
    case neg => rwa [bne_iff_ne.2 hcx, Bool.and_true]
  rw [exec_eq_commit h.kindMany hs hr, hcopies'.commit_restored hmem hrest, h.nextMany]

/-- A repeat of no elements. -/
theorem RepeatOf.exec_zero (hcx : s.reg .cx = 0) : exec many s = .next (s.setIp (s.ip + 2)) :=
  h.exec_many_ok hs (by rw [hcx]; rfl)

/-- A repeat whose first element raises. -/
theorem RepeatOf.exec_succ_fault (hcx : s.reg .cx ≠ 0) (ht : exec one s = .fault f) : exec many s = .fault f := by
  obtain ⟨n, hn, -⟩ := exists_cx_eq_succ hcx
  cases he : element s with
  | ok ws => rw [h.exec_one_ok hs he] at ht; cases ht
  | error g =>
    rw [h.exec_one_error hs he] at ht
    cases ht
    refine h.exec_many_error hs ?_
    rw [hn, repeatElements, he]
    rfl

/-- A repeat whose first element does not raise. -/
theorem RepeatOf.exec_succ {t : State} (hcx : s.reg .cx ≠ 0) (ht : exec one s = .next t) :
    exec many s =
      (if compares = true ∧ (r = .rep ∧ t.flag .ZF = false ∨ r = .repne ∧ t.flag .ZF = true) then
        .next ((t.setReg .cx (s.reg .cx - 1)).setIp (s.ip + 2))
      else exec many ((t.setReg .cx (s.reg .cx - 1)).setIp s.ip)) := by
  obtain ⟨n, hn, hn'⟩ := exists_cx_eq_succ hcx
  cases he : element s with
  | error f => rw [h.exec_one_error hs he] at ht; cases ht
  | ok ws =>
    rw [h.exec_one_ok hs he] at ht
    cases ht
    have hip : (commit ws s).ip = s.ip := ((WorkingCopies.refl s).commit_writes h.ax (h.writes s ws he)).ip
    generalize hs' : (commit ws s).setReg .cx (s.reg .cx - 1) = s'
    have hsame : (((commit ws s).setIp (s.ip + 1)).setReg .cx (s.reg .cx - 1)).setIp s.ip = s' := by
      rw [← hs', ← hip]
      rfl
    have hzf : ((commit ws s).setIp (s.ip + 1)).flag .ZF = s'.flag .ZF := by
      rw [← hs']
      rfl
    have hsim : k ∈ s'.cfg.simulated := by rwa [← hs', State.setReg_cfg, commit_cfg]
    have hcount : (s'.reg .cx).toNat = n := by rw [← hs', State.setReg_reg, if_pos rfl, hn']
    have hip' : s'.ip = s.ip := by rw [← hs']; exact hip
    have hloop := repeatElements_succ he hs'.symm (fun t => compares && repeatStops r t) n
    rw [← hn] at hloop
    rw [hsame, hzf]
    split
    next hstop =>
      rw [if_pos ((repeatStops_iff compares r s').2 hstop)] at hloop
      rw [h.exec_many_ok hs hloop, ← hsame]
      rfl
    next hgo =>
      rw [if_neg fun hstop => hgo ((repeatStops_iff compares r s').1 hstop), ← hcount] at hloop
      cases hrest : repeatElements element (fun t => compares && repeatStops r t) (s'.reg .cx).toNat s' with
      | error f =>
        rw [hrest] at hloop
        rw [h.exec_many_error hs hloop, h.exec_many_error hsim hrest]
      | ok p =>
        rw [hrest] at hloop
        rw [h.exec_many_ok hs hloop, h.exec_many_ok hsim hrest, hip']

end

/-! ### The five string instructions -/

theorem forall_stringInstr {w : Width} {r : Rep} {P : Instr × Instr × Kind × Bool → Prop}
    (hmovs : P (.movs w .none, .movs w r, .movs, false)) (hcmps : P (.cmps w .none, .cmps w r, .cmps, true))
    (hscas : P (.scas w .none, .scas w r, .scas, true)) (hlods : P (.lods w .none, .lods w r, .lods, false))
    (hstos : P (.stos w .none, .stos w r, .stos, false)) : ∀ e ∈ stringInstr w r, P e :=
  List.forall_mem_cons.2 ⟨hmovs, List.forall_mem_cons.2 ⟨hcmps, List.forall_mem_cons.2 ⟨hscas,
    List.forall_mem_cons.2 ⟨hlods, List.forall_mem_singleton.2 hstos⟩⟩⟩⟩

section
variable (w : Width) {r : Rep} (hr : r ≠ .none)
include hr

/-- A repeat is one byte before the record. -/
theorem nextIp_string (s : State) : ∀ e ∈ stringInstr w r, nextIp e.1 s = s.ip + 1 ∧ nextIp e.2.1 s = s.ip + 2 := by
  match r, hr with
  | .rep, _ | .repne, _ => exact forall_stringInstr ⟨rfl, rfl⟩ ⟨rfl, rfl⟩ ⟨rfl, rfl⟩ ⟨rfl, rfl⟩ ⟨rfl, rfl⟩

theorem repeatOf_movs : RepeatOf (.movs w .none) (.movs w r) .movs r (movsElement w) [.si, .di] none false :=
  have hnext s := nextIp_string w hr s (.movs w .none, .movs w r, .movs, false) (by simp [stringInstr])
  ⟨rfl, rfl, fun s => (hnext s).1, fun s => (hnext s).2, fun _ => rfl, fun _ => rfl, movsElement_writes w,
    by decide, hr⟩

theorem repeatOf_cmps : RepeatOf (.cmps w .none) (.cmps w r) .cmps r (cmpsElement w) [.si, .di] none true :=
  have hnext s := nextIp_string w hr s (.cmps w .none, .cmps w r, .cmps, true) (by simp [stringInstr])
  ⟨rfl, rfl, fun s => (hnext s).1, fun s => (hnext s).2, fun _ => rfl, fun _ => rfl, cmpsElement_writes w,
    by decide, hr⟩

theorem repeatOf_scas : RepeatOf (.scas w .none) (.scas w r) .scas r (scasElement w) [.di] none true :=
  have hnext s := nextIp_string w hr s (.scas w .none, .scas w r, .scas, true) (by simp [stringInstr])
  ⟨rfl, rfl, fun s => (hnext s).1, fun s => (hnext s).2, fun _ => rfl, fun _ => rfl, scasElement_writes w,
    by decide, hr⟩

theorem repeatOf_lods : RepeatOf (.lods w .none) (.lods w r) .lods r (lodsElement w) [.si] (some w) false :=
  have hnext s := nextIp_string w hr s (.lods w .none, .lods w r, .lods, false) (by simp [stringInstr])
  ⟨rfl, rfl, fun s => (hnext s).1, fun s => (hnext s).2, fun _ => rfl, fun _ => rfl, lodsElement_writes w,
    by decide, hr⟩

theorem repeatOf_stos : RepeatOf (.stos w .none) (.stos w r) .stos r (stosElement w) [.di] none false :=
  have hnext s := nextIp_string w hr s (.stos w .none, .stos w r, .stos, false) (by simp [stringInstr])
  ⟨rfl, rfl, fun s => (hnext s).1, fun s => (hnext s).2, fun _ => rfl, fun _ => rfl, stosElement_writes w,
    by decide, hr⟩

end

/-- Settles O43: the loop from its first element on, with the working copies as the state in between. -/
theorem repeatUnrolls : Obligations.RepeatUnrolls := by
  intro s w r hr
  have hrow {one many k element index loads compares} (h : RepeatOf one many k r element index loads compares)
      (hs : k ∈ s.cfg.simulated) :
      (s.reg .cx = 0 → exec many s = .next { s with ip := s.ip + 2 }) ∧ (s.reg .cx ≠ 0 →
        (∀ f, exec one s = .fault f → exec many s = .fault f) ∧ ∀ t, exec one s = .next t → exec many s =
          (if compares = true ∧ (r = .rep ∧ t.flag .ZF = false ∨ r = .repne ∧ t.flag .ZF = true) then
            .next ((t.setReg .cx (s.reg .cx - 1)).setIp (s.ip + 2))
          else exec many ((t.setReg .cx (s.reg .cx - 1)).setIp s.ip))) :=
    ⟨h.exec_zero hs, fun hcx => ⟨fun _ ht => h.exec_succ_fault hs hcx ht, fun _ ht => h.exec_succ hs hcx ht⟩⟩
  exact forall_stringInstr (hrow (repeatOf_movs w hr)) (hrow (repeatOf_cmps w hr)) (hrow (repeatOf_scas w hr))
    (hrow (repeatOf_lods w hr)) (hrow (repeatOf_stos w hr))

end Sys2Proof.Machine
end

section
/-! PROOFS. A repeated byte string completes (46_string R351 to R356): by the loop's unrolling, what holds after one
element and then the rest. -/

namespace Sys2Proof.Machine

/-! ### Induction along a repeat -/

/-- The state the rest of a repeat starts from, where its first element leaves `t`. -/
def afterElement (s t : State) : State := (t.setReg .cx (s.reg .cx - 1)).setIp s.ip

theorem afterElement_cx (s t : State) : (afterElement s t).reg .cx = s.reg .cx - 1 := by
  rw [afterElement, State.setIp_reg, State.setReg_reg, if_pos rfl]

/-- The rest makes one element less. -/
theorem exists_count_eq_succ {s : State} (hcx : s.reg .cx ≠ 0) (t : State) :
    ∃ n, (s.reg .cx).toNat = n + 1 ∧ ((afterElement s t).reg .cx).toNat = n := by
  rw [afterElement_cx]
  exact exists_cx_eq_succ hcx

/-- The repeat `r` of a comparison ends at the ZF of `t` (46_string R351). -/
def EndsAt (r : Rep) (t : State) : Prop := r = .rep ∧ t.flag .ZF = false ∨ r = .repne ∧ t.flag .ZF = true

section
variable {one many : Instr} {k : Kind} {r : Rep} {element : State → Except Fault (List Write)} {index : List Reg16}
  {loads : Option Width} {compares : Bool}

theorem RepeatOf.exec_one_cfg (h : RepeatOf one many k r element index loads compares) {s t : State}
    (hs : k ∈ s.cfg.simulated) (ht : exec one s = .next t) : t.cfg = s.cfg := by
  cases he : element s with
  | error f => rw [h.exec_one_error hs he] at ht; cases ht
  | ok ws =>
    rw [h.exec_one_ok hs he] at ht
    cases ht
    exact commit_cfg ws s

/-- What holds of a repeat: where elements always complete, it holds if it holds of no element, of a last element that
ends the repeat, and of an element in front of a rest it holds of. -/
theorem RepeatOf.completes (h : RepeatOf one many k r element index loads compares) {A P : State → State → Prop}
    (hone : ∀ s : State, k ∈ s.cfg.simulated → ExecNext one s (A s))
    (hzero : ∀ s : State, s.reg .cx = 0 → P s (s.setIp (s.ip + 2)))
    (hend : ∀ s t : State, s.reg .cx ≠ 0 → A s t → compares = true → EndsAt r t →
      P s ((t.setReg .cx (s.reg .cx - 1)).setIp (s.ip + 2)))
    (hmore : ∀ s t u : State, s.reg .cx ≠ 0 → A s t → ¬ (compares = true ∧ EndsAt r t) → P (afterElement s t) u → P s u)
    (s : State) (hs : k ∈ s.cfg.simulated) : ExecNext many s (P s) := by
  induction hn : (s.reg .cx).toNat generalizing s with
  | zero =>
    have hcx : s.reg .cx = 0 := BitVec.eq_of_toNat_eq hn
    exact ⟨_, h.exec_zero hs hcx, hzero s hcx⟩
  | succ n ih =>
    have hcx : s.reg .cx ≠ 0 := fun h0 => by simp [h0] at hn
    obtain ⟨t, ht, hA⟩ := hone s hs
    have hstep := h.exec_succ hs hcx ht
    by_cases hstop : compares = true ∧ EndsAt r t
    case pos =>
      exact ⟨_, hstep.trans (if_pos hstop), hend s t hcx hA hstop.1 hstop.2⟩
    case neg =>
      have hcount : ((afterElement s t).reg .cx).toNat = n := by
        obtain ⟨m, hm, hm'⟩ := exists_count_eq_succ hcx t
        omega
      have hcfg : k ∈ (afterElement s t).cfg.simulated := by
        rw [afterElement, State.setIp_cfg, State.setReg_cfg, h.exec_one_cfg hs ht]
        exact hs
      obtain ⟨u, hu, hP⟩ := ih (afterElement s t) hcfg hcount
      exact ⟨u, (hstep.trans (if_neg hstop)).trans hu, hmore s t u hcx hA hstop hP⟩

end

/-! ### Where the index registers are -/

section
variable {s t : State}

theorem moved_byte (s : State) (r : Reg16) : moved s .byte r = indexAt s r 1 := rfl

/-- Element `k` of the rest is element `k + 1`. -/
theorem indexAt_succ {s' : State} {r : Reg16} (hr : s'.reg r = indexAt s r 1) (hd : s'.flag .DF = s.flag .DF)
    (k : Nat) : indexAt s' r k = indexAt s r (k + 1) := by
  unfold indexAt at *
  rw [hd, hr]
  split <;> rw [BitVec.ofNat_add] <;> bv_omega

theorem cx_sub_succ (v : Word) (n : Nat) : v - 1 - BitVec.ofNat 16 n = v - BitVec.ofNat 16 (n + 1) := by
  rw [BitVec.ofNat_add]
  bv_omega

/-- One element: the index registers are one on, and beside them only `x` changes. -/
def ElementStep (index : List Reg16) (x : Touched) (s t : State) : Prop :=
  (∀ r ∈ index, t.reg r = indexAt s r 1) ∧ Frame s t ((touchRegs index).add x)

/-- A repeat of `n` elements: the index registers are `n` on, `cx` is `n` less, and beside them only `x` changes. -/
def RepeatStep (index : List Reg16) (n : Nat) (x : Touched) (s u : State) : Prop :=
  u.ip = s.ip + 2 ∧ u.reg .cx = s.reg .cx - BitVec.ofNat 16 n ∧ (∀ r ∈ index, u.reg r = indexAt s r n) ∧
    Frame s u ((touchRegs (.cx :: index)).add x)

/-- One frame allows what another does. -/
structure Touched.Le (x y : Touched) : Prop where
  regs : x.regs ⊆ y.regs
  halves : x.halves ⊆ y.halves
  segs : x.segs ⊆ y.segs
  flags : x.flags ⊆ y.flags
  bytes : x.bytes ⊆ y.bytes

theorem Frame.le {x y : Touched} (h : Frame s t x) (hxy : x.Le y) : Frame s t y :=
  h.mono hxy.regs hxy.halves hxy.segs hxy.flags hxy.bytes

theorem append_twice_subset {α : Type} {a x y z : List α} (h : x ++ y ⊆ z) : (a ++ x) ++ (a ++ y) ⊆ a ++ z := by
  obtain ⟨hx, hy⟩ := List.append_subset.1 h
  have ha := List.subset_append_left a z
  have hz := List.subset_append_right a z
  exact List.append_subset.2 ⟨List.append_subset.2 ⟨ha, List.Subset.trans hx hz⟩,
    List.append_subset.2 ⟨ha, List.Subset.trans hy hz⟩⟩

/-- A part that two frames share is needed once. -/
theorem Touched.Le.twice {a x y z : Touched} (h : (x.add y).Le z) : ((a.add x).add (a.add y)).Le (a.add z) :=
  ⟨append_twice_subset h.regs, append_twice_subset h.halves, append_twice_subset h.segs, append_twice_subset h.flags,
    append_twice_subset h.bytes⟩

section
variable {index : List Reg16} {x y z : Touched} {u : State} {n : Nat}

theorem indexAt_zero (s : State) (r : Reg16) : indexAt s r 0 = s.reg r := by
  unfold indexAt
  split <;> simp

theorem repeatStep_zero (s : State) (x : Touched) : RepeatStep index 0 x s (s.setIp (s.ip + 2)) :=
  ⟨rfl, by simp, fun r _ => (indexAt_zero s r).symm, (frame_setIp s _).mono (by simp [touchNothing])
    (by simp [touchNothing]) (by simp [touchNothing]) (by simp [touchNothing]) (by simp [touchNothing])⟩

theorem ElementStep.afterElement_reg (h : ElementStep index x s t) (hcx : .cx ∉ index) {r : Reg16} (hr : r ∈ index) :
    (afterElement s t).reg r = indexAt s r 1 := by
  have hne : r ≠ .cx := fun hrcx => hcx (hrcx ▸ hr)
  rw [afterElement, State.setIp_reg, State.setReg_reg, if_neg hne]
  exact h.1 r hr

/-- `cx` and the index registers change from an element to the rest, and what the element touches. -/
theorem ElementStep.frame_afterElement (h : ElementStep index x s t) :
    Frame s (afterElement s t) ((touchRegs (.cx :: index)).add x) := by
  refine (h.2.trans ((frame_setReg t .cx _).trans (frame_setIp _ _))).mono ?_ ?_ ?_ ?_ ?_ <;>
    simp [Touched.add, touchRegs, touchNothing]

theorem ElementStep.indexAt_afterElement (h : ElementStep index x s t) (hcx : .cx ∉ index) (hd : .DF ∉ x.flags)
    {r : Reg16} (hr : r ∈ index) (k : Nat) : indexAt (afterElement s t) r k = indexAt s r (k + 1) := by
  obtain ⟨-, -, -, hflag, -⟩ := h.frame_afterElement
  exact indexAt_succ (h.afterElement_reg hcx hr)
    (hflag .DF (by simpa [Touched.add, touchRegs, touchNothing] using hd)) k

/-- An element and then a rest of `n`. -/
theorem ElementStep.repeatStep (h : ElementStep index x s t) (hcx : .cx ∉ index) (hd : .DF ∉ x.flags)
    (hu : RepeatStep index n y (afterElement s t) u) (hz : (x.add y).Le z) : RepeatStep index (n + 1) z s u := by
  obtain ⟨hip, hcount, hindex, hframe⟩ := hu
  refine ⟨hip, ?count, fun r hr => ?index, (h.frame_afterElement.trans hframe).le hz.twice⟩
  case count =>
    rw [hcount, ← cx_sub_succ, afterElement_cx]
  case index => rw [hindex r hr, h.indexAt_afterElement hcx hd hr]

/-- An element that ends the repeat. -/
theorem ElementStep.repeatStep_one (h : ElementStep index x s t) (hcx : .cx ∉ index) :
    RepeatStep index 1 x s ((t.setReg .cx (s.reg .cx - 1)).setIp (s.ip + 2)) :=
  ⟨rfl, by simp, fun _ hr => h.afterElement_reg hcx hr, h.frame_afterElement⟩

end

/-! ### MOVS and STOS -/

/-- The addresses of the first `c` elements of the destination string. -/
def destAddrs (s : State) (c : Nat) : List Nat :=
  (List.range c).map fun k => phys (s.seg .es) (indexAt s .di k).toNat

theorem destAddr_eq (s : State) : destAddr s = phys (s.seg .es) (indexAt s .di 0).toNat := by
  rw [indexAt_zero]
  rfl

/-- The first element, and those of the rest. -/
theorem destAddrs_succ {index : List Reg16} (hcx : .cx ∉ index) (hdi : .di ∈ index)
    (h : ElementStep index (touchBytes [destAddr s]) s t) (c : Nat) :
    destAddrs s (c + 1) = destAddr s :: destAddrs (afterElement s t) c := by
  obtain ⟨-, -, hseg, -⟩ := h.frame_afterElement
  have hes : (afterElement s t).seg .es = s.seg .es := hseg .es List.not_mem_nil
  rw [destAddrs, List.range_succ_eq_map, List.map_cons, ← destAddr_eq, List.map_map, destAddrs, hes]
  simp only [Function.comp_def, h.indexAt_afterElement hcx List.not_mem_nil hdi]

/-- A repeat that stores all its elements. -/
theorem RepeatOf.stores {one many : Instr} {k : Kind} {r : Rep} {element : State → Except Fault (List Write)}
    {index : List Reg16} {loads : Option Width} (h : RepeatOf one many k r element index loads false)
    (hcx : .cx ∉ index) (hdi : .di ∈ index)
    (hone : ∀ s : State, k ∈ s.cfg.simulated → ExecNext one s (ElementStep index (touchBytes [destAddr s]) s))
    (s : State) (hs : k ∈ s.cfg.simulated) :
    ExecNext many s (RepeatStep index (s.reg .cx).toNat (touchBytes (destAddrs s (s.reg .cx).toNat)) s) := by
  refine h.completes (P := fun s => RepeatStep index (s.reg .cx).toNat (touchBytes (destAddrs s (s.reg .cx).toNat)) s)
    hone (fun s h0 => ?zero) (fun _ _ _ _ hc => absurd hc Bool.false_ne_true) (fun s t u hne hA _ hu => ?more) s hs
  case zero =>
    rw [h0]
    exact repeatStep_zero s _
  case more =>
    obtain ⟨n, hn, hcount⟩ := exists_count_eq_succ hne t
    rw [hcount] at hu
    rw [hn]
    refine hA.repeatStep hcx List.not_mem_nil hu ?_
    rw [destAddrs_succ hcx hdi hA]
    constructor <;> simp [Touched.add, touchBytes, touchNothing]

/-! ### LODS -/

theorem sourceByte_zero (s : State) : valueAt s .byte (sourceAddr s) = sourceByte s 0 := by
  rw [sourceByte, indexAt_zero]
  rfl

theorem destByte_zero (s : State) : valueAt s .byte (destAddr s) = destByte s 0 := by
  rw [destByte, indexAt_zero]
  rfl

/-- Where an element stores nothing, element `k` of the rest is element `k + 1`. -/
theorem ElementStep.sourceByte_afterElement {index : List Reg16} {x : Touched} (h : ElementStep index x s t)
    (hcx : .cx ∉ index) (hsi : .si ∈ index) (hd : .DF ∉ x.flags) (hseg : x.segs = []) (hb : x.bytes = []) (k : Nat) :
    sourceByte (afterElement s t) k = sourceByte s (k + 1) := by
  obtain ⟨-, -, hsegs, -, hbytes, -⟩ := h.frame_afterElement
  rw [sourceByte, sourceByte, h.indexAt_afterElement hcx hd hsi,
    hsegs .ds (by simp [Touched.add, touchRegs, touchNothing, hseg]),
    hbytes _ (by simp [Touched.add, touchRegs, touchNothing, hb])]

theorem ElementStep.destByte_afterElement {index : List Reg16} {x : Touched} (h : ElementStep index x s t)
    (hcx : .cx ∉ index) (hdi : .di ∈ index) (hd : .DF ∉ x.flags) (hseg : x.segs = []) (hb : x.bytes = []) (k : Nat) :
    destByte (afterElement s t) k = destByte s (k + 1) := by
  obtain ⟨-, -, hsegs, -, hbytes, -⟩ := h.frame_afterElement
  rw [destByte, destByte, h.indexAt_afterElement hcx hd hdi,
    hsegs .es (by simp [Touched.add, touchRegs, touchNothing, hseg]),
    hbytes _ (by simp [Touched.add, touchRegs, touchNothing, hb])]

/-- What LODS leaves in `al`: the last element, if there was one. -/
def LoadsLast (s u : State) : Prop :=
  ((s.reg .cx).toNat = 0 → u.reg8 .al = s.reg8 .al) ∧
    ∀ k, (s.reg .cx).toNat = k + 1 → (u.reg8 .al).toNat = sourceByte s k

theorem lods_repeat {r : Rep} (hr : r ≠ .none) (s : State) (hs : .lods ∈ s.cfg.simulated) :
    ExecNext (.lods .byte r) s fun u =>
      RepeatStep [.si] (s.reg .cx).toNat (touchHalves [.al]) s u ∧ LoadsLast s u := by
  refine (repeatOf_lods .byte hr).completes
    (A := fun s t => ElementStep [.si] (touchHalves [.al]) s t ∧ (t.reg8 .al).toNat = sourceByte s 0)
    (P := fun s u => RepeatStep [.si] (s.reg .cx).toNat (touchHalves [.al]) s u ∧ LoadsLast s u)
    (fun s hs => ?one) (fun s h0 => ?zero) (fun _ _ _ _ hc => absurd hc Bool.false_ne_true)
    (fun s t u hne hA _ hu => ?more) s hs
  case one =>
    refine (lods_element hs (accessOk_byte_phys _ _)).imp ?_
    rintro t ⟨-, hsi, hacc, hframe⟩
    have hal : t.reg8 .al = BitVec.ofNat 8 (valueAt s .byte (sourceAddr s)) := hacc
    refine ⟨⟨List.forall_mem_singleton.2 hsi, hframe⟩, ?_⟩
    have hlt : valueAt s .byte (sourceAddr s) < 2 ^ 8 := valueAt_lt s .byte _
    rw [hal, BitVec.toNat_ofNat, Nat.mod_eq_of_lt hlt, sourceByte_zero]
  case zero =>
    rw [LoadsLast, h0]
    exact ⟨repeatStep_zero s _, fun _ => rfl, nofun⟩
  case more =>
    obtain ⟨n, hn, hcount⟩ := exists_count_eq_succ hne t
    have hal' : (afterElement s t).reg8 .al = t.reg8 .al := by simp [afterElement, State.reg8, Reg8.parent]
    obtain ⟨hstep, hal⟩ := hA
    obtain ⟨hrest, hkept, hlast⟩ := hu
    rw [hcount] at hrest hkept hlast
    rw [LoadsLast, hn]
    refine ⟨hstep.repeatStep (by decide) List.not_mem_nil hrest ?_, fun h0 => absurd h0 n.succ_ne_zero, ?_⟩
    · constructor <;> simp [Touched.add, touchHalves, touchNothing]
    rintro k hk
    cases Nat.succ.inj hk
    cases n with
    | zero => rw [hkept rfl, hal', hal]
    | succ n =>
      rw [hlast n rfl]
      exact hstep.sourceByte_afterElement (by decide) (.head _) List.not_mem_nil rfl rfl n

/-! ### CMPS and SCAS -/

/-- The flags of a subtraction are read off the flags. -/
theorem SubFlags.congr {t u : State} {w : Width} {a b bin : Nat} (h : SubFlags t w a b bin)
    (hf : ∀ f, u.flag f = t.flag f) : SubFlags u w a b bin := by
  simpa only [SubFlags, ResultFlags, hf] using h

/-- ZF says whether the bytes compared are equal. -/
theorem SubFlags.zf_iff {t : State} {a b : Nat} (h : SubFlags t .byte a b 0) (ha : a < 256) (hb : b < 256) :
    t.flag .ZF = true ↔ a = b := by
  obtain ⟨-, -, -, -, hz, -⟩ := h
  rw [hz]
  have hmod : (reduce .byte ((a : Int) - b - (0 : Nat)) : Int) = ((a : Int) - b - (0 : Nat)) % 256 :=
    reduce_eq_emod .byte _
  omega

/-- Element `k` compares `a k` with `b k`. -/
structure Comparison (index : List Reg16) (a b : State → Nat → Nat) (s t : State) : Prop where
  step : ElementStep index (touchFlags arithFlags) s t
  flags : SubFlags t .byte (a s 0) (b s 0) 0
  lt : a s 0 < 256 ∧ b s 0 < 256
  next : ∀ k, a (afterElement s t) k = a s (k + 1) ∧ b (afterElement s t) k = b s (k + 1)

/-- What a repeated comparison has done: the inner part of `ComparesUpTo`. -/
def ComparedUpTo (r : Rep) (index : List Reg16) (a b : State → Nat → Nat) (s u : State) : Prop :=
  ∃ n : Nat, n ≤ (s.reg .cx).toNat ∧
    (∀ k, k + 1 < n → (r = .rep → a s k = b s k) ∧ (r = .repne → a s k ≠ b s k)) ∧
    (n = (s.reg .cx).toNat ∨ ∃ k, n = k + 1 ∧ (r = .rep → a s k ≠ b s k) ∧ (r = .repne → a s k = b s k)) ∧
    (∀ k, n = k + 1 → SubFlags u .byte (a s k) (b s k) 0) ∧
    RepeatStep index n (touchFlags (if s.reg .cx = 0 then [] else arithFlags)) s u

section
variable {r : Rep} {index : List Reg16} {a b : State → Nat → Nat} {u : State}

theorem Comparison.endsAt_iff (h : Comparison index a b s t) :
    EndsAt r t ↔ r = .rep ∧ a s 0 ≠ b s 0 ∨ r = .repne ∧ a s 0 = b s 0 := by
  have hz := h.flags.zf_iff h.lt.1 h.lt.2
  rw [EndsAt, hz, ← Bool.not_eq_true, hz]

theorem comparedUpTo_zero (h0 : s.reg .cx = 0) : ComparedUpTo r index a b s (s.setIp (s.ip + 2)) :=
  ⟨0, Nat.zero_le _, nofun, .inl (by rw [h0]; rfl), nofun, repeatStep_zero s _⟩

theorem Comparison.comparedUpTo_end (h : Comparison index a b s t) (hcx : .cx ∉ index) (hne : s.reg .cx ≠ 0)
    (hend : EndsAt r t) : ComparedUpTo r index a b s ((t.setReg .cx (s.reg .cx - 1)).setIp (s.ip + 2)) := by
  obtain ⟨n, hn, -⟩ := exists_count_eq_succ hne t
  refine ⟨1, by omega, fun k hk => absurd hk (by omega), .inr ⟨0, rfl, ?_⟩, fun k hk => ?_, ?_⟩
  · obtain ⟨rfl, he⟩ | ⟨rfl, he⟩ := h.endsAt_iff.1 hend
    · exact ⟨fun _ => he, nofun⟩
    · exact ⟨nofun, fun _ => he⟩
  · cases Nat.succ.inj hk
    exact h.flags.congr fun _ => rfl
  · rw [if_neg hne]
    exact h.step.repeatStep_one hcx

theorem Comparison.comparedUpTo_succ (h : Comparison index a b s t) (hcx : .cx ∉ index) (hne : s.reg .cx ≠ 0)
    (hgo : ¬ EndsAt r t) (hu : ComparedUpTo r index a b (afterElement s t) u) : ComparedUpTo r index a b s u := by
  obtain ⟨c, hc, hcount⟩ := exists_count_eq_succ hne t
  obtain ⟨n, hle, hbefore, hlast, hflags, hstep⟩ := hu
  simp only [h.next, hcount] at hle hbefore hlast hflags
  have hfirst : (r = .rep → a s 0 = b s 0) ∧ (r = .repne → a s 0 ≠ b s 0) := by
    rw [h.endsAt_iff] at hgo
    exact ⟨fun hr => not_not.1 fun hab => hgo (.inl ⟨hr, hab⟩), fun hr hab => hgo (.inr ⟨hr, hab⟩)⟩
  refine ⟨n + 1, by omega, ?before, ?last, ?flags, ?step⟩
  case before =>
    rintro (_ | k) hk
    · exact hfirst
    · exact hbefore k (by omega)
  case last =>
    obtain hall | ⟨k, rfl, hk⟩ := hlast
    · exact .inl (by omega)
    · exact .inr ⟨k + 1, rfl, hk⟩
  case flags =>
    rintro (_ | k) hk
    · cases Nat.succ.inj hk
      have h0 : (afterElement s t).reg .cx = 0 :=
        BitVec.eq_of_toNat_eq (hcount.trans (hlast.resolve_right fun ⟨_, hk, _⟩ => absurd hk nofun).symm)
      obtain ⟨-, -, -, -, -, -, hflag, -⟩ := hstep
      exact h.flags.congr fun f => hflag f (by simp [h0, Touched.add, touchRegs, touchFlags, touchNothing])
    · exact hflags k (Nat.succ.inj hk)
  case step =>
    rw [if_neg hne]
    refine h.step.repeatStep hcx (by decide) hstep ?_
    split <;> constructor <;> simp [Touched.add, touchFlags, touchNothing]

end

/-- A repeated comparison of bytes. -/
theorem RepeatOf.compares {one many : Instr} {k : Kind} {r : Rep} {element : State → Except Fault (List Write)}
    {index : List Reg16} {loads : Option Width} {a b : State → Nat → Nat}
    (h : RepeatOf one many k r element index loads true) (hcx : .cx ∉ index)
    (hone : ∀ s : State, k ∈ s.cfg.simulated → ExecNext one s (Comparison index a b s))
    (s : State) (hs : k ∈ s.cfg.simulated) : ComparesUpTo many s r (a s) (b s) index := by
  have hmany := h.completes (P := ComparedUpTo r index a b) hone (fun s h0 => comparedUpTo_zero h0)
    (fun s t hne hA _ hend => hA.comparedUpTo_end hcx hne hend)
    (fun s t u hne hA hgo hu => hA.comparedUpTo_succ hcx hne (fun hend => hgo ⟨rfl, hend⟩) hu) s hs
  refine hmany.imp ?_
  rintro u ⟨n, hle, hbefore, hlast, hflags, hip, hcount, hindex, hframe⟩
  exact ⟨hip, n, hle, hbefore, hlast, hcount, hindex, hflags, hframe⟩

theorem destByte_lt (s : State) (k : Nat) : destByte s k < 256 := (s.byteAt _).isLt

theorem sourceByte_lt (s : State) (k : Nat) : sourceByte s k < 256 := (s.byteAt _).isLt

theorem cmps_comparison (s : State) (hs : .cmps ∈ s.cfg.simulated) :
    ExecNext (.cmps .byte .none) s (Comparison [.si, .di] sourceByte destByte s) := by
  refine (cmps_element hs (accessOk_byte_phys _ _) (accessOk_byte_phys _ _)).imp ?_
  rintro t ⟨-, hsi, hdi, hflags, hframe⟩
  have hstep : ElementStep [.si, .di] (touchFlags arithFlags) s t := ⟨by simp [hsi, hdi, moved_byte], hframe⟩
  rw [sourceByte_zero, destByte_zero] at hflags
  exact ⟨hstep, hflags, ⟨sourceByte_lt s 0, destByte_lt s 0⟩, fun k =>
    ⟨hstep.sourceByte_afterElement (by decide) (by decide) (by decide) rfl rfl k,
      hstep.destByte_afterElement (by decide) (by decide) (by decide) rfl rfl k⟩⟩

theorem scas_comparison (s : State) (hs : .scas ∈ s.cfg.simulated) :
    ExecNext (.scas .byte .none) s (Comparison [.di] (fun s _ => (s.reg8 .al).toNat) destByte s) := by
  refine (scas_element hs (accessOk_byte_phys _ _)).imp ?_
  rintro t ⟨-, hdi, hflags, hframe⟩
  have hstep : ElementStep [.di] (touchFlags arithFlags) s t := ⟨List.forall_mem_singleton.2 hdi, hframe⟩
  have hal : (afterElement s t).reg8 .al = s.reg8 .al := by
    obtain ⟨-, hhalf, -⟩ := hstep.frame_afterElement
    exact hhalf .al List.not_mem_nil (by decide)
  rw [destByte_zero] at hflags
  exact ⟨hstep, hflags, ⟨(s.reg8 .al).isLt, destByte_lt s 0⟩, fun k => ⟨congrArg BitVec.toNat hal,
    hstep.destByte_afterElement (by decide) (by decide) (by decide) rfl rfl k⟩⟩

/-- Settles O44: a byte of data memory is always reached, so each element completes; then by induction on `cx`. -/
theorem repeatedByteStringCompletes : Obligations.RepeatedByteStringCompletes := by
  rintro s r c written hr rfl rfl
  have hcx {u : State} (h : u.reg .cx = s.reg .cx - BitVec.ofNat 16 (s.reg .cx).toNat) : u.reg .cx = 0 := by
    rw [h, BitVec.ofNat_toNat, BitVec.setWidth_eq]
    exact BitVec.sub_self _
  refine ⟨fun hs => ?movs, fun hs => ?lods, fun hs => ?stos, fun hs => ?cmps, fun hs => ?scas⟩
  case movs =>
    refine ((repeatOf_movs .byte hr).stores (by decide) (by decide) (fun s hs => ?_) s hs).imp ?_
    · refine (movs_element hs (accessOk_byte_phys _ _) (accessOk_byte_phys _ _)).imp ?_
      rintro t ⟨-, hsi, hdi, -, hframe⟩
      exact ⟨by simp [hsi, hdi, moved_byte], hframe⟩
    · rintro u ⟨hip, hcount, hindex, hframe⟩
      exact ⟨hip, hcx hcount, hindex .si (by decide), hindex .di (by decide), hframe⟩
  case stos =>
    refine ((repeatOf_stos .byte hr).stores (by decide) (by decide) (fun s hs => ?_) s hs).imp ?_
    · refine (stos_element hs (accessOk_byte_phys _ _)).imp ?_
      rintro t ⟨-, hdi, -, hframe⟩
      exact ⟨List.forall_mem_singleton.2 hdi, hframe⟩
    · rintro u ⟨hip, hcount, hindex, hframe⟩
      exact ⟨hip, hcx hcount, hindex .di (by decide), hframe⟩
  case lods =>
    refine (lods_repeat hr s hs).imp ?_
    rintro u ⟨⟨hip, hcount, hindex, hframe⟩, -, hlast⟩
    exact ⟨hip, hcx hcount, hindex .si (by decide), hlast, hframe⟩
  case cmps => exact (repeatOf_cmps .byte hr).compares (by decide) cmps_comparison s hs
  case scas => exact (repeatOf_scas .byte hr).compares (by decide) scas_comparison s hs

end

end Sys2Proof.Machine
end

section
/-! PROOFS. A prefix row runs the record its bytes are folded into (40_decoder_prefixes R142 to R152). -/

namespace Sys2Proof.Machine

/-! ### The record a prefix row runs -/

theorem exists_kind_of_wellFormed {lk : Lockable} {j : Instr} (h : WellFormed lk j = true) :
    ∃ k, recordKind j = some k := by
  cases j
  case seg | lock | repne | rep | reserved => cases h
  all_goals exact ⟨_, rfl⟩

theorem runRecord_eq_exec {lk : Lockable} {j : Instr} (h : WellFormed lk j = true) (s : State) :
    runRecord j s = exec j s := by
  obtain ⟨k, hk⟩ := exists_kind_of_wellFormed h
  rw [exec_eq_complete hk, runRecord, hk]

section
variable {s : State} {i j : Instr} {rest : List Byte}

theorem runFolded_of_decodeOne_ok (h : decodeOne s.cfg.lockable (encode i) = .ok (j, rest)) :
    runFolded i s = exec j s := by
  rw [runFolded, Instr.fold, h]
  exact runRecord_eq_exec (decodeFrom_sound h).1 s

theorem runFolded_of_decodeOne_error {e : Malformed} (h : decodeOne s.cfg.lockable (encode i) = .error e) :
    runFolded i s = .fault (.malformedEncoding e s.ip.toNat) := by
  rw [runFolded, Instr.fold, h]
  rfl

/-- A prefix row whose bytes are those of a record runs that record. -/
theorem runFolded_of_encode (hw : WellFormed s.cfg.lockable j = true) (h : encode j = encode i) :
    runFolded i s = exec j s := by
  have hd := decodeOne_encode hw []
  rw [List.append_nil, h] at hd
  exact runFolded_of_decodeOne_ok hd

end

/-- A lock and an override may stand either way round (40_decoder_prefixes R145). -/
theorem decodeOne_override_lock (lk : Lockable) (sr : Sreg) (bs : List Byte) :
    decodeOne lk (sr.overrideByte :: 0xF0 :: bs) = decodeOne lk (0xF0 :: sr.overrideByte :: bs) := by
  rw [decodeOne, decodeFrom_of_seg lk _ _ (firstByte_overrideByte sr) rfl,
    decodeFrom_of_lock lk _ _ firstByte_lockByte rfl, decodeOne, decodeFrom_of_lock lk _ _ firstByte_lockByte rfl,
    decodeFrom_of_seg lk _ _ (firstByte_overrideByte sr) rfl]

/-! ### A lock in front of an instruction that consumes one -/

section
variable {s : State} {i j : Instr} {k : Kind} {op op1 op2 : Operand} {w : Width}

/-- The memory operand, if there is one, is inside the space. -/
def MemOk (s : State) (m : Option Ea) : Prop :=
  ∀ ea w, m = some ea → ea.size = some w → accessOk w (eaPhys s ea) = true

theorem operandOk_of_memOk (h : MemOk s op.ea?) (ha : op.isAt w = true) : operandOk s w op = true := by
  cases op with
  | reg8 | reg16 => rfl
  | mem ea =>
    obtain ⟨-, hsize⟩ := Bool.and_eq_true_iff.1 ha
    exact h ea w rfl (eq_of_beq hsize)

/-- At most one operand of a pair is in memory (30_encoding R104). -/
theorem pairOk_of_memOk (h : MemOk s (op1.ea?.or op2.ea?)) (hp : pairDW op1 op2 = true) :
    operandOk s (pairWidth op1 op2) op1 = true ∧ operandOk s (pairWidth op1 op2) op2 = true := by
  obtain ⟨h1, h2⟩ := pairDW_isAt hp
  have hnot : (op1.isMem && op2.isMem) = false := Bool.eq_false_of_not_eq_true' (Bool.and_eq_true_iff.1 hp).2
  cases op1 with
  | mem ea =>
    have hreg : op2.isMem = false := hnot
    exact ⟨operandOk_of_memOk h h1, operandOk_of_not_isMem _ _ hreg⟩
  | reg8 | reg16 => exact ⟨rfl, operandOk_of_memOk h h2⟩

/-- The rule of the record answers a diff. -/
def Completes (i : Instr) (s : State) : Prop := ∃ e ws, ruleDiff i s = .ok (e :: ws)

theorem Completes.exec (h : Completes i s) (hk : recordKind i = some k) (hs : k ∈ s.cfg.simulated) :
    ∃ t, Machine.exec i s = .next t :=
  let ⟨_, _, hr⟩ := h
  ⟨_, exec_eq_commit hk hs hr⟩

/-- The row of an instruction that consumes a lock: the bytes, the kind and the completion of the locked record. -/
def LockRow (s : State) (e : Instr × Instr) : Prop :=
  encode e.2 = 0xF0 :: encode e.1 ∧ recordKind e.2 = recordKind e.1 ∧
    (WellFormed s.cfg.lockable e.2 = true → MemOk s e.1.mem? → Completes e.2 s)

theorem lockRow_of_pair (henc : encode j = 0xF0 :: encode i) (hk : recordKind j = recordKind i)
    {c : Bool} (hw : WellFormed s.cfg.lockable j = (pairDW op1 op2 && c)) (hm : i.mem? = op1.ea?.or op2.ea?)
    (hr : operandOk s (pairWidth op1 op2) op1 = true → operandOk s (pairWidth op1 op2) op2 = true → Completes j s) :
    LockRow s (i, j) := by
  refine ⟨henc, hk, fun hwf hmem => ?_⟩
  rw [hw] at hwf
  rw [hm] at hmem
  obtain ⟨h1, h2⟩ := pairOk_of_memOk hmem (Bool.and_eq_true_iff.1 hwf).1
  exact hr h1 h2

theorem lockRow_of_operand (henc : encode j = 0xF0 :: encode i) (hk : recordKind j = recordKind i)
    {c : Bool} {p : Bool} (hw : WellFormed s.cfg.lockable j = (p && c)) (hp : p = true → op.isAt op.width = true)
    (hm : i.mem? = op.ea?) (hr : operandOk s op.width op = true → Completes j s) : LockRow s (i, j) := by
  refine ⟨henc, hk, fun hwf hmem => ?_⟩
  rw [hw] at hwf
  rw [hm] at hmem
  exact hr (operandOk_of_memOk hmem (hp (Bool.and_eq_true_iff.1 hwf).1))

theorem lockRow_xchg (s : State) (op1 op2 : Operand) :
    LockRow s (.xchgRmReg false op1 op2, .xchgRmReg true op1 op2) := by
  refine ⟨rfl, rfl, fun hw hm => ?_⟩
  obtain ⟨hp, hreg⟩ := Bool.and_eq_true_iff.1 (Bool.and_eq_true_iff.1 hw).1
  obtain ⟨h1, h2⟩ := pairOk_of_memOk (op1 := op1) (op2 := op2) hm
    (Bool.and_eq_true_iff.2 ⟨hp, by rw [Bool.eq_false_of_not_eq_true' hreg, Bool.and_false]; rfl⟩)
  exact ⟨_, _, exchangeDiff_ok h1 h2⟩

section
variable {f : Nat → Nat → AluResult} {g : Nat → Nat → Nat} {c p : Bool} {b : Nat} (henc : encode j = 0xF0 :: encode i)
  (hk : recordKind j = recordKind i)
include henc hk

theorem lockRow_arith_pair (hw : WellFormed s.cfg.lockable j = (pairDW op1 op2 && c)) (hm : i.mem? = op1.ea?.or op2.ea?)
    (hr : ruleDiff j s = arithDiff j s (pairWidth op1 op2) op1 (readOp s (pairWidth op1 op2) op2) f) :
    LockRow s (i, j) :=
  lockRow_of_pair henc hk hw hm fun h1 h2 => ⟨_, _, hr.trans (arithDiff_ok h1 (readOp_ok h2) f)⟩

theorem lockRow_logic_pair (hw : WellFormed s.cfg.lockable j = (pairDW op1 op2 && c)) (hm : i.mem? = op1.ea?.or op2.ea?)
    (hr : ruleDiff j s = logicDiff j s (pairWidth op1 op2) op1 (readOp s (pairWidth op1 op2) op2) g) :
    LockRow s (i, j) :=
  lockRow_of_pair henc hk hw hm fun h1 h2 => ⟨_, _, hr.trans (logicDiff_ok h1 (readOp_ok h2) g)⟩

theorem lockRow_arith_imm {imm : Imm} (hw : WellFormed s.cfg.lockable j = (immSW op imm && c)) (hm : i.mem? = op.ea?)
    (hr : ruleDiff j s = arithDiff j s op.width op (.ok b) f) : LockRow s (i, j) :=
  lockRow_of_operand henc hk hw immSW_isAt hm fun h => ⟨_, _, hr.trans (arithDiff_ok h rfl f)⟩

theorem lockRow_logic_imm {imm : Imm} (hw : WellFormed s.cfg.lockable j = (immW op imm && c)) (hm : i.mem? = op.ea?)
    (hr : ruleDiff j s = logicDiff j s op.width op (.ok b) g) : LockRow s (i, j) :=
  lockRow_of_operand henc hk hw immW_isAt hm fun h => ⟨_, _, hr.trans (logicDiff_ok h rfl g)⟩

end

/-- Each row is one of the templates of the locked kinds. -/
theorem lockRow_of_mem_lockRows (s : State) (op1 op2 : Operand) (imm : Imm) :
    ∀ e ∈ lockRows op1 op2 imm, LockRow s e := by
  simp only [lockRows, List.forall_mem_append, List.forall_mem_cons, List.not_mem_nil, false_implies, implies_true,
    and_true]
  refine ⟨⟨?pair, ?imm⟩, ?inc, ?dec, ?neg, ?not⟩
  case pair =>
    exact ⟨lockRow_arith_pair rfl rfl rfl rfl rfl, lockRow_arith_pair rfl rfl rfl rfl rfl,
      lockRow_arith_pair rfl rfl rfl rfl rfl, lockRow_arith_pair rfl rfl rfl rfl rfl,
      lockRow_logic_pair rfl rfl rfl rfl rfl, lockRow_logic_pair rfl rfl rfl rfl rfl,
      lockRow_logic_pair rfl rfl rfl rfl rfl⟩
  case imm =>
    exact ⟨lockRow_arith_imm rfl rfl rfl rfl rfl, lockRow_arith_imm rfl rfl rfl rfl rfl,
      lockRow_arith_imm rfl rfl rfl rfl rfl, lockRow_arith_imm rfl rfl rfl rfl rfl,
      lockRow_logic_imm rfl rfl rfl rfl rfl, lockRow_logic_imm rfl rfl rfl rfl rfl,
      lockRow_logic_imm rfl rfl rfl rfl rfl⟩
  case inc =>
    exact lockRow_of_operand rfl rfl rfl Operand.isAt_width rfl fun h => ⟨_, _, stepByOneDiff_ok h (aluInc op1.width)⟩
  case dec =>
    exact lockRow_of_operand rfl rfl rfl Operand.isAt_width rfl fun h => ⟨_, _, stepByOneDiff_ok h (aluDec op1.width)⟩
  case neg => exact lockRow_of_operand rfl rfl rfl Operand.isAt_width rfl fun h => ⟨_, _, diffNeg_ok h⟩
  case not => exact lockRow_of_operand rfl rfl rfl Operand.isAt_width rfl fun h => ⟨_, _, diffNot_ok h⟩

/-- A lock row and the locked record complete alike. -/
theorem LockRow.completes {e : Instr × Instr} (h : LockRow s e) (hw : WellFormed s.cfg.lockable e.2 = true)
    (hk : recordKind e.1 = some k) (hs : k ∈ s.cfg.simulated) (hm : MemOk s e.1.mem?) :
    ∃ t, exec (.lock e.1) s = .next t ∧ exec e.2 s = .next t := by
  obtain ⟨henc, hkind, hcomplete⟩ := h
  obtain ⟨t, ht⟩ := (hcomplete hw hm).exec (hkind.trans hk) hs
  exact ⟨t, (runFolded_of_encode (i := .lock e.1) hw henc).trans ht, ht⟩

end

/-! ### Overrides and repeats -/

/-- A direct byte load behind an override. -/
theorem exec_override_movAccMem (s : State) (sr : Sreg) (a : Word) (hs : .movAccMem ∈ s.cfg.simulated) :
    exec (.seg sr (.movAccMem .byte ⟨.direct, .d16 a, none, some .byte⟩)) s =
      .next ((s.setIp (s.ip + 4)).setReg8 .al (s.byteAt (eaPhys s ⟨.direct, .d16 a, some sr, some .byte⟩))) := by
  have hfold : exec (.seg sr (.movAccMem .byte ⟨.direct, .d16 a, none, some .byte⟩)) s =
      exec (.movAccMem .byte ⟨.direct, .d16 a, some sr, some .byte⟩) s := runFolded_of_encode rfl rfl
  have hval : BitVec.ofNat 8 (valueAt s .byte (eaPhys s ⟨.direct, .d16 a, some sr, some .byte⟩)) =
      s.byteAt (eaPhys s ⟨.direct, .d16 a, some sr, some .byte⟩) := by
    rw [valueAt, BitVec.ofNat_toNat, BitVec.setWidth_eq]
  have hr : ruleDiff (.movAccMem .byte ⟨.direct, .d16 a, some sr, some .byte⟩) s = .ok [.ip (s.ip + 4),
      .reg8 .al (s.byteAt (eaPhys s ⟨.direct, .d16 a, some sr, some .byte⟩))] := by
    rw [← hval]
    exact moveDiff_ok (w := .byte) (op := acc .byte) rfl (memRead_ok (accessOk_byte_phys _ _))
  rw [hfold, exec_eq_commit rfl hs hr]
  rfl

/-- A load of a register behind an override. -/
theorem exec_override_movRmReg {s : State} {sr : Sreg} {w : Width} {dst : Operand} {ea : Ea} (hseg : ea.seg = none)
    (hsize : ea.size = some w)
    (hw : WellFormed s.cfg.lockable (.movRmReg dst (.mem { ea with seg := some sr })) = true)
    (hs : .movRmReg ∈ s.cfg.simulated) (ho : accessOk w (eaPhys s { ea with seg := some sr }) = true) :
    ∃ t, exec (.seg sr (.movRmReg dst (.mem ea))) s = .next t ∧
      exec (.movRmReg dst (.mem { ea with seg := some sr })) s = .next t := by
  obtain ⟨kind, disp, seg, size⟩ := ea
  cases hseg
  have hreg : dst.isMem = false := by
    simpa [Operand.isMem] using Bool.eq_false_of_not_eq_true' (Bool.and_eq_true_iff.1 hw).2
  have henc : encode (.movRmReg dst (.mem ⟨kind, disp, some sr, size⟩)) =
      encode (.seg sr (.movRmReg dst (.mem ⟨kind, disp, none, size⟩))) := by
    cases dst with
    | mem => cases hreg
    | reg8 | reg16 => rfl
  have hsrc : operandOk s (pairWidth dst (.mem ⟨kind, disp, some sr, size⟩))
      (.mem ⟨kind, disp, some sr, size⟩) = true := by
    refine operandOk_of_memOk (fun ea w' hea hsize' => ?_) (pairDW_isAt hw).2
    cases hea
    cases hsize.symm.trans hsize'
    exact ho
  have ht := exec_eq_commit (i := .movRmReg dst (.mem ⟨kind, disp, some sr, size⟩)) rfl hs
    (moveDiff_ok (operandOk_of_not_isMem _ _ hreg) (readOp_ok hsrc))
  exact ⟨_, (runFolded_of_encode hw henc).trans ht, ht⟩

theorem exec_rep_row (s : State) : ∀ e ∈ stringInstr .byte .rep, exec (.rep e.1) s = exec e.2.1 s := by
  have hrow {i j : Instr} (hw : WellFormed s.cfg.lockable j = true) (henc : encode j = encode (.rep i)) :
      exec (.rep i) s = exec j s := runFolded_of_encode hw henc
  exact forall_stringInstr (hrow rfl rfl) (hrow rfl rfl) (hrow rfl rfl) (hrow rfl rfl) (hrow rfl rfl)

theorem exec_repne_row (s : State) : ∀ e ∈ stringInstr .byte .repne, exec (.repne e.1) s = exec e.2.1 s := by
  have hrow {i j : Instr} (hw : WellFormed s.cfg.lockable j = true) (henc : encode j = encode (.repne i)) :
      exec (.repne i) s = exec j s := runFolded_of_encode hw henc
  exact forall_stringInstr (hrow rfl rfl) (hrow rfl rfl) (hrow rfl rfl) (hrow rfl rfl) (hrow rfl rfl)

theorem repeatedByteString_completes (s : State) {r : Rep} (hr : r ≠ .none) :
    ∀ e ∈ stringInstr .byte r, e.2.2.1 ∈ s.cfg.simulated → ∃ t, exec e.2.1 s = .next t := by
  have hnext {i : Instr} {P : State → Prop} (h : ExecNext i s P) : ∃ t, exec i s = .next t :=
    let ⟨t, ht, _⟩ := h
    ⟨t, ht⟩
  obtain ⟨hmovs, hlods, hstos, hcmps, hscas⟩ := repeatedByteStringCompletes s r _ _ hr rfl rfl
  exact forall_stringInstr (fun hs => hnext (hmovs hs)) (fun hs => hnext (hcmps hs)) (fun hs => hnext (hscas hs))
    (fun hs => hnext (hlods hs)) (fun hs => hnext (hstos hs))

/-- Settles O19: the fold of a prefix row is `decodeOne` on its bytes, which reads a record from its encoding; and the
records named complete because their accesses are inside the space. -/
theorem prefixRowRunsTheFoldedRecord : Obligations.PrefixRowRunsTheFoldedRecord := by
  refine ⟨fun s i j hw => ⟨fun sr h => runFolded_of_encode hw h, fun h => runFolded_of_encode hw h,
      fun sr h => ⟨?swap, runFolded_of_encode hw h⟩, fun h => runFolded_of_encode hw h,
      fun h => runFolded_of_encode hw h⟩, ?decodes, ?lock, fun s sr a hs => exec_override_movAccMem s sr a hs,
    fun s sr w dst ea hseg hsize hw hs ho => exec_override_movRmReg hseg hsize hw hs ho, ?repeats⟩
  case swap =>
    have hd := decodeOne_encode hw []
    rw [List.append_nil, h, ← decodeOne_override_lock] at hd
    exact runFolded_of_decodeOne_ok (i := .seg sr (.lock i)) hd
  case decodes =>
    intro s i j sr rest e
    simp only [List.forall_mem_cons, List.not_mem_nil, false_implies, implies_true, and_true]
    exact ⟨⟨runFolded_of_decodeOne_ok (i := .seg sr i), runFolded_of_decodeOne_error (i := .seg sr i)⟩,
      ⟨runFolded_of_decodeOne_ok (i := .lock i), runFolded_of_decodeOne_error (i := .lock i)⟩,
      ⟨runFolded_of_decodeOne_ok (i := .repne i), runFolded_of_decodeOne_error (i := .repne i)⟩,
      ⟨runFolded_of_decodeOne_ok (i := .rep i), runFolded_of_decodeOne_error (i := .rep i)⟩⟩
  case lock =>
    intro s op1 op2 imm k e he hw hk hs hm
    obtain rfl | he := List.mem_cons.1 he
    · exact (lockRow_xchg s op1 op2).completes hw hk hs hm
    · exact (lockRow_of_mem_lockRows s op1 op2 imm e he).completes hw hk hs hm
  case repeats =>
    refine fun s => ⟨fun e he hs => ?_, fun e he hs => ?_⟩
    · obtain ⟨t, ht⟩ := repeatedByteString_completes s (by decide) e he hs
      exact ⟨t, (exec_rep_row s e he).trans ht, ht⟩
    · obtain ⟨t, ht⟩ := repeatedByteString_completes s (by decide) e he hs
      exact ⟨t, (exec_repne_row s e he).trans ht, ht⟩

end Sys2Proof.Machine
end
